-- ==== Sys2Proof/Word.lean ====
section
/-! DEFINITION. The bit-vector types of the core: words, and the fields of a command's selector. -/

namespace Sys2Proof

/-- Every CommandProcessor register, operand and result is 32 bits wide (R12, R50). -/
abbrev Word := BitVec 32

/-- The operation field `sel[2:0]` (R64). -/
abbrev OpCode := BitVec 3

/-- The register id `sel[9:3]` (R64). -/
abbrev RegId := BitVec 7

/-- The selector of a command: `{regId[6:0], op[2:0]}` (R63, R64). -/
abbrev Selector := BitVec 10

end Sys2Proof
end

