-- ==== Sys2Proof/Config.lean ====
section
/-! DEFINITION. What an implementation fixes (R13), and the values the spec leaves unspecified.
None of the opaque constants has a body: every statement about the model holds for every value of them. -/

namespace Sys2Proof

/-- The two stores (R3, R11): InputStore (`IN`) and FilterStore (`FLT`). -/
inductive StoreId where
  | input
  | filter
  deriving DecidableEq, Repr

namespace Config

/-- How far the store capacity lies above the least one R13 allows (log entry 5). -/
opaque capacityExcess : Nat

/-- STORE_CAPACITY: words each store can hold, an open parameter of at least 40 (R13, D13; log entry 5). -/
def storeCapacity : Nat := capacityExcess + 40

/-- How far COUNT_WIDTH lies above the least one R13 allows (log entry 6). -/
opaque countWidthExcess : Nat

/-- COUNT_WIDTH: width of `credit` and `release.count`, an open parameter of at least 3 (R13, D23; log entry 6). -/
def countWidth : Nat := countWidthExcess + 3

/-- How far PAYLOAD_WIDTH lies above the least one R13 allows (log entry 7). -/
opaque payloadWidthExcess : Nat

/-- PAYLOAD_WIDTH: width of an element of the FlowRestrictor, an open parameter of at least 1 (R13, D24; log entry 7). -/
def payloadWidth : Nat := payloadWidthExcess + 1

/-- FREE VALUE. What word `index` of a store reads as where no append has written it since the last configuration
(R46, U4, U11), at the value `epoch` of the model's SET and PING counter (log entry 8). -/
opaque unwrittenWord (epoch : Nat) (store : StoreId) (index : Nat) : Word

/-- FREE VALUE. What word `j` of a store's window reads as where the word count is not a multiple of 4
(R48, U9; log entry 8). -/
opaque unalignedWord (epoch : Nat) (store : StoreId) (j : Nat) : Word

/-- FREE VALUE. The MAC value where a window word it reads is unspecified (R131, U10; log entry 9). -/
opaque unspecifiedMac (epoch : Nat) : Word

/-- FREE VALUE. `result` in an idle step (R102, U13; log entry 10). -/
opaque idleResult (step : Nat) : Word

/-- FREE VALUE. `out.payload` in a step without a forward (R82, U12; log entry 10). -/
opaque idlePayload (step : Nat) : BitVec payloadWidth

end Config

end Sys2Proof
end

