-- ==== Sys2Proof/Syntax.lean ====
section
/-! DEFINITION. The commands of the core: one constructor per row of spec/opcode_table.json (R68). -/

namespace Sys2Proof

/-- A decoded command. A constructor carries the operands its command uses (R67); PING also carries the
register id of its selector, which it ignores (R72). -/
inductive Instr where
  /-- GET(VERIFY), R109 -/
  | getVerify
  /-- GET(MACC_OUT), R130 -/
  | getMaccOut
  /-- GET(INPUT_LANE_0), R117 -/
  | getInputLane0
  /-- GET(INPUT_LANE_1), R118 -/
  | getInputLane1
  /-- GET(INPUT_LANE_2), R119 -/
  | getInputLane2
  /-- GET(INPUT_LANE_3), R120 -/
  | getInputLane3
  /-- GET(FILTER_LANE_0), R121 -/
  | getFilterLane0
  /-- GET(FILTER_LANE_1), R122 -/
  | getFilterLane1
  /-- GET(FILTER_LANE_2), R123 -/
  | getFilterLane2
  /-- GET(FILTER_LANE_3), R124 -/
  | getFilterLane3
  /-- SET(VERIFY, v), R108 -/
  | setVerify (v : Word)
  /-- SET(INPUT_NUM_WORDS, v), R113 -/
  | setInputNumWords (v : Word)
  /-- SET(INPUT_WORD, v), R115 -/
  | setInputWord (v : Word)
  /-- SET(FILTER_NUM_WORDS, v), R114 -/
  | setFilterNumWords (v : Word)
  /-- SET(FILTER_WORD, v), R116 -/
  | setFilterWord (v : Word)
  /-- SET(INPUT_OFFSET, v), R129 -/
  | setInputOffset (v : Word)
  /-- SET(ADVANCE_WINDOW, v), R125: the operand is ignored -/
  | setAdvanceWindow
  /-- PING(a, b), alias FIRE(a, b), R110 -/
  | ping (regId : RegId) (a b : Word)
  deriving DecidableEq, Repr

end Sys2Proof
end

