-- ==== Sys2Proof/WellFormed.lean ====
section
/-! DEFINITION. A command as the host presents it, and when it is well formed, that is, not reserved (R65, R66, R69 to R71).
An `Instr` needs no check of its own: R67 gives it no immediates, and its operands are whole 32-bit words by their type. -/

namespace Sys2Proof

/-- A command on the command port: a 10-bit selector and two 32-bit operands (R63). -/
structure Command where
  sel : Selector
  in0 : Word
  in1 : Word
  deriving DecidableEq, Repr

/-- `sel[2:0]` (R64). -/
def Command.op (c : Command) : OpCode := c.sel.extractLsb' 0 3

/-- `sel[9:3]` (R64). -/
def Command.regId (c : Command) : RegId := c.sel.extractLsb' 3 7

/-- The operation is GET (0), SET (1) or PING (2) (R65, R69). -/
def Command.opOk (c : Command) : Bool := c.op.toNat < 3

/-- The register id is mapped (R42, R71); PING ignores it (R72). -/
def Command.idOk (c : Command) : Bool := c.op.toNat == 2 || c.regId.toNat < 16

/-- The register supports the direction of the access (R66, R70); PING has none. -/
def Command.directionOk (c : Command) : Bool :=
  match c.op.toNat with
  | 0 => [0, 6, 7, 8, 9, 10, 11, 12, 13, 14].contains c.regId.toNat
  | 1 => [0, 1, 2, 3, 4, 5, 15].contains c.regId.toNat
  | _ => true

/-- A command that is not reserved (R68). -/
def Command.wellFormed (c : Command) : Bool := c.opOk && c.idOk && c.directionOk

end Sys2Proof
end

