-- ==== Sys2Proof/Machine/State.lean ====
section
/-! DEFINITION. The state of the machine (10_state.md), as plain data, the reasons a step can stop, and the state after reset. -/

namespace Sys2Proof.Machine

/-- The known words of a store, as (word index, word) pairs, the indices strictly rising. The store's smallest
addressable unit is the 32-bit word (R43, R44). A word that is not listed has unspecified contents (R30; log entry 12). -/
abbrev Memory := List (Nat × Word)

/-- The indices of `m` are strictly rising: the one canonical form of a memory. -/
def Memory.wf (m : Memory) : Bool :=
  match m with
  | [] => true
  | [_] => true
  | (a, _) :: (b, w) :: rest => decide (a < b) && Memory.wf ((b, w) :: rest)

/-- A set of word indices in its one canonical form: strictly rising. -/
def risingIndices (l : List Nat) : Bool :=
  match l with
  | [] => true
  | [_] => true
  | a :: b :: rest => decide (a < b) && risingIndices (b :: rest)

/-- One windowed circular store (R27 to R31). -/
structure Store where
  /-- `S.n`, the declared word count (R27) -/
  n : Nat
  /-- `S.writePos`, the write pointer (R28) -/
  writePos : Nat
  /-- `S.windowBase`, the word index of word 0 of the window (R29) -/
  windowBase : Nat
  /-- `S.buf`, the words (R30) -/
  buf : Memory
  /-- `S.written`, the indices appended since the last configuration (R31) -/
  written : List Nat
  deriving DecidableEq, Repr

/-- Which blocks a reset event resets (R155): one block alone, or the whole core. -/
inductive ResetScope where
  | processor
  | restrictor
  | core
  deriving DecidableEq, Repr

/-- What the environment presents: the input signals of one step (R35, R36), or a reset event (R153), which overrides
the signals beside it (R141). -/
structure StepInput where
  /-- a reset event in place of the step -/
  reset : Option ResetScope
  /-- `cmd.valid` -/
  valid : Bool
  /-- `cmd.op`, `cmd.regId`, `cmd.in0`, `cmd.in1` -/
  cmd : Command
  /-- `in.payload` -/
  inPayload : BitVec Config.payloadWidth
  /-- `in.available` -/
  inAvailable : Bool
  /-- `out.accepted` -/
  outAccepted : Bool
  /-- `release.count` -/
  releaseCount : BitVec Config.countWidth
  /-- `release.requestValid` -/
  releaseValid : Bool
  deriving DecidableEq, Repr

/-- The FlowRestrictor's outputs of one step (R35). -/
structure GateOutputs where
  /-- `in.accepted` -/
  inAccepted : Bool
  /-- `out.available` -/
  outAvailable : Bool
  /-- `out.payload` -/
  outPayload : BitVec Config.payloadWidth
  /-- `releaseReady` -/
  releaseReady : Bool
  deriving DecidableEq, Repr

/-- Everything the spec gives the machine (R23 to R33), then the model's own fields: what the environment presents
next, the outputs of the last step, and the two counters the free values are drawn with. -/
structure State where
  /-- VERIFY (R23) -/
  verify : Word
  /-- PINGSUM (R24) -/
  pingSum : Word
  /-- INPUT_OFFSET, signed (R25) -/
  inputOffset : Word
  /-- MACC_LATCH (R26) -/
  maccLatch : Word
  /-- InputStore (R27 to R31) -/
  input : Store
  /-- FilterStore (R27 to R31) -/
  filter : Store
  /-- the FlowRestrictor's `credit` (R33) -/
  credit : Nat
  /-- what the environment presents in the coming steps (log entries 1, 2) -/
  inputs : List StepInput
  /-- `result` of the last step; none after a reset (R36, U14; log entry 3) -/
  result : Option Word
  /-- the FlowRestrictor's outputs of the last step; none after a reset (R35, U14; log entry 3) -/
  gate : Option GateOutputs
  /-- SETs, PINGs and processor resets so far: the counter of the unspecified window words (log entry 8) -/
  epoch : Nat
  /-- entries of the input list taken so far: the counter of the idle outputs (log entry 10) -/
  steps : Nat
  deriving DecidableEq, Repr

/-- The core never faults (R106, R138): no step raises a fault, so this type has no constructor (log entry 17). Safe. -/
inductive Fault where
  deriving DecidableEq, Repr

/-- Why the model gives a command no meaning (R16, R142). -/
inductive Refusal where
  /-- raised by an arm of exec that has no meaning yet; safe -/
  | notModelled (mnemonic : String)
  /-- raised by `step` on an op code 3 to 7 (R69); safe (log entry 14) -/
  | reservedOp
  /-- raised by `step` on GET or SET of an id 16 to 127 (R71); safe (log entry 14) -/
  | unmappedId
  /-- raised by `step` on a GET of a write-only id or a SET of a read-only id (R70); safe (log entry 14) -/
  | wrongDirection
  /-- raised by SET(INPUT_NUM_WORDS) and SET(FILTER_NUM_WORDS) above STORE_CAPACITY (R113, R114); safe (log entry 15) -/
  | capacityExceeded
  deriving DecidableEq, Repr

/-- A store right after reset (R38): no words declared, both pointers 0, nothing written, contents unspecified. -/
def Store.reset : Store where
  n := 0
  writePos := 0
  windowBase := 0
  buf := []
  written := []

/-- The machine right after reset (R38, R153). -/
def State.reset : State where
  verify := 1
  pingSum := 0
  inputOffset := 0
  maccLatch := 0
  input := Store.reset
  filter := Store.reset
  credit := 0
  inputs := []
  result := none
  gate := none
  epoch := 0
  steps := 0

end Sys2Proof.Machine
end

