-- ==== Sys2Proof/Machine/Operands.lean ====
section
/-! DEFINITION. The fixed parameters (R11), how operands are read (R14, R67), and the lanes of a word (R44, R49). -/

namespace Sys2Proof.Machine

/-- LANES_PER_WORD (R11). -/
def lanesPerWord : Nat := 4

/-- LANE_WIDTH in bits (R11). -/
def laneWidth : Nat := 8

/-- WINDOW_WORDS (R11). -/
def windowWords : Nat := 4

/-- The 16 lanes of a window (R11). -/
def windowLanes : Nat := windowWords * lanesPerWord

/-- `uint(v)` (R14). -/
def uint (v : Word) : Nat := v.toNat

/-- `sint(v)` (R14). -/
def sint (v : Word) : Int := v.toInt

/-- `wrap32(i)` (R14). -/
def wrap32 (i : Int) : Word := BitVec.ofInt 32 i

/-- The sum of two words modulo 2^32, `wrap32(uint(a) + uint(b))` (R67, R108, R110). -/
def addWords (a b : Word) : Word := wrap32 ((uint a : Int) + (uint b : Int))

/-- `Lane(w, k) = sint(w[8k+7 : 8k])` (R49). -/
def lane (w : Word) (k : Nat) : Int := (w.extractLsb' (laneWidth * k) laneWidth).toInt

end Sys2Proof.Machine
end

