-- ==== Sys2Proof/Machine/Ops.lean ====
section
/-! DEFINITION. The shared operations over the stores (R46 to R49, R113 to R116, R125), the MAC value (R131) and the results
of commands (R100). The core takes no exception and returns from none (R138, R143, R144), so there is no operation for that. -/

namespace Sys2Proof.Machine

/-- Word `i` of a memory, where it is known (R30). -/
def Memory.read (m : Memory) (i : Nat) : Option Word :=
  match m with
  | [] => none
  | (a, w) :: rest => if a = i then some w else Memory.read rest i

/-- Store `v` as word `i`, keeping the canonical form (R47). -/
def Memory.write (m : Memory) (i : Nat) (v : Word) : Memory :=
  match m with
  | [] => [(i, v)]
  | (a, w) :: rest =>
    if i < a then (i, v) :: (a, w) :: rest
    else if i = a then (i, v) :: rest
    else (a, w) :: Memory.write rest i v

/-- Put `i` into a set of indices, keeping the canonical form (R47). -/
def markWritten (l : List Nat) (i : Nat) : List Nat :=
  match l with
  | [] => [i]
  | a :: rest =>
    if i < a then i :: a :: rest
    else if i = a then a :: rest
    else a :: markWritten rest i

/-- The store of an id (R27). -/
def State.store (s : State) (id : StoreId) : Store :=
  match id with
  | .input => s.input
  | .filter => s.filter

/-- Replace the store of an id. -/
def State.setStore (s : State) (id : StoreId) (st : Store) : State :=
  match id with
  | .input => { s with input := st }
  | .filter => { s with filter := st }

/-- The word that was appended at `i` since the last configuration; none where `MemRead` draws (R46). -/
def Store.appended? (st : Store) (i : Nat) : Option Word :=
  if st.written.contains i then Memory.read st.buf i else none

/-- `MemRead(S, i)` (R46): the appended word, or a free value (log entry 8). -/
def memRead (epoch : Nat) (id : StoreId) (st : Store) (i : Nat) : Word :=
  (st.appended? i).getD (Config.unwrittenWord epoch id i)

/-- `MemWrite(S, i, v)` (R47). -/
def memWrite (st : Store) (i : Nat) (v : Word) : Store :=
  { st with buf := Memory.write st.buf i v, written := markWritten st.written i }

/-- The index of word `j` of the window: `(S.windowBase + j) mod S.n` (R48). -/
def windowIndex (st : Store) (j : Nat) : Nat := (st.windowBase + j) % st.n

/-- `WinWord(S, j)` (R48). -/
def winWord (epoch : Nat) (id : StoreId) (st : Store) (j : Nat) : Word :=
  if st.n = 0 then 0
  else if st.n % windowWords ≠ 0 then Config.unalignedWord epoch id j
  else memRead epoch id st (windowIndex st j)

/-- `WinWord(S, j)` draws no free value (R48). -/
def winWordKnown (st : Store) (j : Nat) : Bool :=
  st.n == 0 || (st.n % windowWords == 0 && (st.appended? (windowIndex st j)).isSome)

/-- No word of the window is unspecified. -/
def windowKnown (st : Store) : Bool := (List.range windowWords).all fun j => winWordKnown st j

/-- `WinLane(S, m) = Lane(WinWord(S, m div 4), m mod 4)` (R49). -/
def winLane (epoch : Nat) (id : StoreId) (st : Store) (m : Nat) : Int :=
  lane (winWord epoch id st (m / lanesPerWord)) (m % lanesPerWord)

/-- The exact sum inside MacValue: over the 16 lanes, `(sint(INPUT_OFFSET) + WinLane(IN, m)) * WinLane(FLT, m)` (R131). -/
def macSum (s : State) : Int :=
  ((List.range windowLanes).map fun m =>
    (sint s.inputOffset + winLane s.epoch .input s.input m) * winLane s.epoch .filter s.filter m).sum

/-- `MacValue()` (R131). An empty FilterStore gives 0 (R134, R135); otherwise an unspecified window word makes the whole
value a free value (U10; log entry 9). -/
def macValue (s : State) : Word :=
  if s.filter.n = 0 then 0
  else if windowKnown s.input && windowKnown s.filter then wrap32 (macSum s)
  else Config.unspecifiedMac s.epoch

/-- Drive the result of a GET: nothing else changes (R52, R100). -/
def driveResult (s : State) (v : Word) : State := { s with result := some v }

/-- Complete a SET: its result is always 0 (R100). The free-value counter moves on (log entry 8). -/
def completeSet (s : State) : State := { s with result := some 0, epoch := s.epoch + 1 }

/-- A store configured with `n` words (R113, R114): the words keep their contents but count as unwritten. -/
def Store.configured (st : Store) (n : Nat) : Store :=
  { st with n := n, writePos := 0, windowBase := 0, written := [] }

/-- A store after an append (R115, R116): a no-op store where `n = 0`. -/
def Store.appended (st : Store) (v : Word) : Store :=
  if 0 < st.n then { memWrite st st.writePos v with writePos := (st.writePos + 1) % st.n } else st

/-- A store after a window advance (R125): a no-op where `n = 0`. -/
def Store.advanced (st : Store) : Store :=
  if 0 < st.n then { st with windowBase := (st.windowBase + windowWords) % st.n } else st

/-- SET(*_NUM_WORDS, v) on a store (R113, R114). -/
def configureStore (id : StoreId) (v : Word) (s : State) : Host.Outcome State Fault Refusal :=
  if Config.storeCapacity < uint v then .refused .capacityExceeded
  else .next (completeSet (s.setStore id ((s.store id).configured (uint v))))

/-- SET(*_WORD, v) on a store (R115, R116). -/
def appendWord (id : StoreId) (v : Word) (s : State) : Host.Outcome State Fault Refusal :=
  .next (completeSet (s.setStore id ((s.store id).appended v)))

/-- GET(*_LANE_j) on a store (R117 to R124): word `j` of the current window. -/
def readWindow (id : StoreId) (j : Nat) (s : State) : Host.Outcome State Fault Refusal :=
  .next (driveResult s (winWord s.epoch id (s.store id) j))

/-- `MacTick()`: latch the MAC value of the state at the start of the step (R131). -/
def macTick (start s : State) : State := { s with maccLatch := macValue start }

end Sys2Proof.Machine
end

