-- ==== Sys2Proof/Machine/Diagnostic.lean ====
section
/-! DEFINITION. The diagnostic registers: SET(VERIFY), GET(VERIFY) and PING (42_diagnostic_registers.md). -/

namespace Sys2Proof.Machine

/-- SET(VERIFY, v): `VERIFY <- wrap32(uint(VERIFY) + uint(v))`, result 0 (R108). -/
def execSetVerify (v : Word) (s : State) : Host.Outcome State Fault Refusal :=
  .next (completeSet { s with verify := addWords s.verify v })

/-- GET(VERIFY): result VERIFY (R109). -/
def execGetVerify (s : State) : Host.Outcome State Fault Refusal :=
  .next (driveResult s s.verify)

/-- PING(a, b): result the previous PINGSUM, `PINGSUM <- wrap32(uint(a) + uint(b))`, MacTick (R110). The register id is
ignored (R72). The free-value counter moves on (log entry 8). -/
def execPing (_regId : RegId) (a b : Word) (s : State) : Host.Outcome State Fault Refusal :=
  .next (macTick s { s with result := some s.pingSum, pingSum := addWords a b, epoch := s.epoch + 1 })

end Sys2Proof.Machine
end

