-- ==== Sys2Proof/Machine/MaccUnit.lean ====
section
/-! DEFINITION. The commands of the MaccUnit and the input offset (44_macc.md); the MAC tick itself is in Ops. -/

namespace Sys2Proof.Machine

/-- SET(INPUT_OFFSET, v): all 32 bits are stored (R129). -/
def execSetInputOffset (v : Word) (s : State) : Host.Outcome State Fault Refusal :=
  .next (completeSet { s with inputOffset := v })

/-- GET(MACC_OUT): result MACC_LATCH (R130). -/
def execGetMaccOut (s : State) : Host.Outcome State Fault Refusal :=
  .next (driveResult s s.maccLatch)

end Sys2Proof.Machine
end

