-- ==== Sys2Proof/Machine/WindowedStore.lean ====
section
/-! DEFINITION. The commands of the two windowed stores (43_windowed_store.md). -/

namespace Sys2Proof.Machine

/-- SET(INPUT_NUM_WORDS, v) (R113). -/
def execSetInputNumWords (v : Word) (s : State) : Host.Outcome State Fault Refusal :=
  configureStore .input v s

/-- SET(FILTER_NUM_WORDS, v) (R114). -/
def execSetFilterNumWords (v : Word) (s : State) : Host.Outcome State Fault Refusal :=
  configureStore .filter v s

/-- SET(INPUT_WORD, v) (R115). -/
def execSetInputWord (v : Word) (s : State) : Host.Outcome State Fault Refusal :=
  appendWord .input v s

/-- SET(FILTER_WORD, v) (R116). -/
def execSetFilterWord (v : Word) (s : State) : Host.Outcome State Fault Refusal :=
  appendWord .filter v s

/-- GET(INPUT_LANE_0) (R117). -/
def execGetInputLane0 (s : State) : Host.Outcome State Fault Refusal := readWindow .input 0 s

/-- GET(INPUT_LANE_1) (R118). -/
def execGetInputLane1 (s : State) : Host.Outcome State Fault Refusal := readWindow .input 1 s

/-- GET(INPUT_LANE_2) (R119). -/
def execGetInputLane2 (s : State) : Host.Outcome State Fault Refusal := readWindow .input 2 s

/-- GET(INPUT_LANE_3) (R120). -/
def execGetInputLane3 (s : State) : Host.Outcome State Fault Refusal := readWindow .input 3 s

/-- GET(FILTER_LANE_0) (R121). -/
def execGetFilterLane0 (s : State) : Host.Outcome State Fault Refusal := readWindow .filter 0 s

/-- GET(FILTER_LANE_1) (R122). -/
def execGetFilterLane1 (s : State) : Host.Outcome State Fault Refusal := readWindow .filter 1 s

/-- GET(FILTER_LANE_2) (R123). -/
def execGetFilterLane2 (s : State) : Host.Outcome State Fault Refusal := readWindow .filter 2 s

/-- GET(FILTER_LANE_3) (R124). -/
def execGetFilterLane3 (s : State) : Host.Outcome State Fault Refusal := readWindow .filter 3 s

/-- SET(ADVANCE_WINDOW, v): both windows move together (R125). -/
def execSetAdvanceWindow (s : State) : Host.Outcome State Fault Refusal :=
  .next (completeSet { s with input := s.input.advanced, filter := s.filter.advanced })

end Sys2Proof.Machine
end

