-- ==== Sys2Proof/Machine/Dispatch.lean ====
section
/-! DEFINITION. The dispatch table of the CommandProcessor (R101): one arm per command. -/

namespace Sys2Proof.Machine

def exec (i : Instr) (s : State) : Host.Outcome State Fault Refusal :=
  match i with
  | .getVerify => Sys2Proof.Machine.execGetVerify s
  | .getMaccOut => Sys2Proof.Machine.execGetMaccOut s
  | .getInputLane0 => Sys2Proof.Machine.execGetInputLane0 s
  | .getInputLane1 => Sys2Proof.Machine.execGetInputLane1 s
  | .getInputLane2 => Sys2Proof.Machine.execGetInputLane2 s
  | .getInputLane3 => Sys2Proof.Machine.execGetInputLane3 s
  | .getFilterLane0 => Sys2Proof.Machine.execGetFilterLane0 s
  | .getFilterLane1 => Sys2Proof.Machine.execGetFilterLane1 s
  | .getFilterLane2 => Sys2Proof.Machine.execGetFilterLane2 s
  | .getFilterLane3 => Sys2Proof.Machine.execGetFilterLane3 s
  | .setVerify v => Sys2Proof.Machine.execSetVerify v s
  | .setInputNumWords v => Sys2Proof.Machine.execSetInputNumWords v s
  | .setInputWord v => Sys2Proof.Machine.execSetInputWord v s
  | .setFilterNumWords v => Sys2Proof.Machine.execSetFilterNumWords v s
  | .setFilterWord v => Sys2Proof.Machine.execSetFilterWord v s
  | .setInputOffset v => Sys2Proof.Machine.execSetInputOffset v s
  | .setAdvanceWindow => Sys2Proof.Machine.execSetAdvanceWindow s
  | .ping regId a b => Sys2Proof.Machine.execPing regId a b s

end Sys2Proof.Machine
end

