-- ==== Sys2Proof/Decode.lean ====
section
/-! DEFINITION. Decoding a command (R68), total and rejecting reserved commands by name, and the encoder (R64 to R66, R77). -/

namespace Sys2Proof

/-- Why a command is reserved (R69 to R71), in the order of R142. -/
inductive Reserved where
  /-- op code 3 to 7 (R69) -/
  | reservedOp
  /-- GET or SET of an id 16 to 127 (R71) -/
  | unmappedId
  /-- GET of an id with no GET, or SET of an id with no SET (R70) -/
  | wrongDirection
  deriving DecidableEq, Repr

/-- The GET column of R66. -/
def decodeGet (id : Nat) : Except Reserved Instr :=
  match id with
  | 0 => .ok .getVerify
  | 6 => .ok .getMaccOut
  | 7 => .ok .getInputLane0
  | 8 => .ok .getInputLane1
  | 9 => .ok .getInputLane2
  | 10 => .ok .getInputLane3
  | 11 => .ok .getFilterLane0
  | 12 => .ok .getFilterLane1
  | 13 => .ok .getFilterLane2
  | 14 => .ok .getFilterLane3
  | id => if 16 ≤ id then .error .unmappedId else .error .wrongDirection

/-- The SET column of R66; every SET reads `in0` only (R67). -/
def decodeSet (id : Nat) (in0 : Word) : Except Reserved Instr :=
  match id with
  | 0 => .ok (.setVerify in0)
  | 1 => .ok (.setInputNumWords in0)
  | 2 => .ok (.setInputWord in0)
  | 3 => .ok (.setFilterNumWords in0)
  | 4 => .ok (.setFilterWord in0)
  | 5 => .ok (.setInputOffset in0)
  | 15 => .ok .setAdvanceWindow
  | id => if 16 ≤ id then .error .unmappedId else .error .wrongDirection

/-- Decode (R68): total on every selector; the reasons come in the order of R142. -/
def decode (c : Command) : Except Reserved Instr :=
  match c.op.toNat with
  | 0 => decodeGet c.regId.toNat
  | 1 => decodeSet c.regId.toNat c.in0
  | 2 => .ok (.ping c.regId c.in0 c.in1)
  | _ => .error .reservedOp

/-- The register id of a command's selector (R66, R77). -/
def encodeRegId (i : Instr) : RegId :=
  match i with
  | .getVerify => 0
  | .getMaccOut => 6
  | .getInputLane0 => 7
  | .getInputLane1 => 8
  | .getInputLane2 => 9
  | .getInputLane3 => 10
  | .getFilterLane0 => 11
  | .getFilterLane1 => 12
  | .getFilterLane2 => 13
  | .getFilterLane3 => 14
  | .setVerify _ => 0
  | .setInputNumWords _ => 1
  | .setInputWord _ => 2
  | .setFilterNumWords _ => 3
  | .setFilterWord _ => 4
  | .setInputOffset _ => 5
  | .setAdvanceWindow => 15
  | .ping regId _ _ => regId

/-- The operation code of a command (R65). -/
def encodeOp (i : Instr) : OpCode :=
  match i with
  | .getVerify | .getMaccOut => 0
  | .getInputLane0 | .getInputLane1 | .getInputLane2 | .getInputLane3 => 0
  | .getFilterLane0 | .getFilterLane1 | .getFilterLane2 | .getFilterLane3 => 0
  | .setVerify _ | .setInputNumWords _ | .setInputWord _ => 1
  | .setFilterNumWords _ | .setFilterWord _ => 1
  | .setInputOffset _ | .setAdvanceWindow => 1
  | .ping _ _ _ => 2

/-- The first operand; 0 where the command ignores it (R67). -/
def encodeIn0 (i : Instr) : Word :=
  match i with
  | .getVerify | .getMaccOut | .setAdvanceWindow => 0
  | .getInputLane0 | .getInputLane1 | .getInputLane2 | .getInputLane3 => 0
  | .getFilterLane0 | .getFilterLane1 | .getFilterLane2 | .getFilterLane3 => 0
  | .setVerify v | .setInputNumWords v | .setInputWord v => v
  | .setFilterNumWords v | .setFilterWord v | .setInputOffset v => v
  | .ping _ a _ => a

/-- The second operand; 0 where the command ignores it (R67). -/
def encodeIn1 (i : Instr) : Word :=
  match i with
  | .getVerify | .getMaccOut | .setAdvanceWindow => 0
  | .getInputLane0 | .getInputLane1 | .getInputLane2 | .getInputLane3 => 0
  | .getFilterLane0 | .getFilterLane1 | .getFilterLane2 | .getFilterLane3 => 0
  | .setVerify _ | .setInputNumWords _ | .setInputWord _ => 0
  | .setFilterNumWords _ | .setFilterWord _ | .setInputOffset _ => 0
  | .ping _ _ b => b

/-- The command of an instruction: `sel = {regId, op}` (R64, R77). -/
def encode (i : Instr) : Command where
  sel := encodeRegId i ++ encodeOp i
  in0 := encodeIn0 i
  in1 := encodeIn1 i

/-- The command uses its first operand (R67). -/
def usesIn0 (i : Instr) : Bool :=
  match i with
  | .getVerify | .getMaccOut | .setAdvanceWindow => false
  | .getInputLane0 | .getInputLane1 | .getInputLane2 | .getInputLane3 => false
  | .getFilterLane0 | .getFilterLane1 | .getFilterLane2 | .getFilterLane3 => false
  | .setVerify _ | .setInputNumWords _ | .setInputWord _ => true
  | .setFilterNumWords _ | .setFilterWord _ | .setInputOffset _ => true
  | .ping _ _ _ => true

/-- The command uses its second operand: PING alone does (R67). -/
def usesIn1 (i : Instr) : Bool :=
  match i with
  | .getVerify | .getMaccOut | .setAdvanceWindow => false
  | .getInputLane0 | .getInputLane1 | .getInputLane2 | .getInputLane3 => false
  | .getFilterLane0 | .getFilterLane1 | .getFilterLane2 | .getFilterLane3 => false
  | .setVerify _ | .setInputNumWords _ | .setInputWord _ => false
  | .setFilterNumWords _ | .setFilterWord _ | .setInputOffset _ => false
  | .ping _ _ _ => true

/-- Pseudo-instruction FIRE(a, b) (R76). -/
def pseudoFire (a b : Word) : Instr := .ping 0 a b

/-- Pseudo-instruction FIRE: a bare trigger step (R76). -/
def pseudoFireBare : Instr := .ping 0 0 0

/-- Pseudo-instruction ADVANCE (R76). -/
def pseudoAdvance : Instr := .setAdvanceWindow

/-- The command whose bits are `w`, numbered as spec/opcode_table.json numbers them: the selector is bits 9..0, and the
operands count on from it, `in0` in bits 41..10 and `in1` in bits 73..42 (log entry 4). -/
def commandOfTableWord (nbits w : Nat) : Command where
  sel := BitVec.ofNat 10 (w % 2 ^ nbits)
  in0 := BitVec.ofNat 32 (w % 2 ^ nbits / 2 ^ 10)
  in1 := BitVec.ofNat 32 (w % 2 ^ nbits / 2 ^ 42)

/-- What the decoder reads from a command whose bits are `w`. -/
def decodeTableWord (nbits w : Nat) : Option Instr :=
  match decode (commandOfTableWord nbits w) with
  | .ok i => some i
  | .error _ => none

end Sys2Proof
end

