-- ==== Sys2Proof/Machine/Port.lean ====
section
/-! DEFINITION. The environment's side of a step: which inputs are presented (R35, R36), the idle step (R102), reset events
(R153, R155), and the refusals of reserved commands (R103). -/

namespace Sys2Proof.Machine

/-- The inputs of a step in which nothing is asserted: an idle step, no offer, no consumer, no request (R76 IDLE, R102). -/
def quietInput : StepInput where
  reset := none
  valid := false
  cmd := { sel := 0, in0 := 0, in1 := 0 }
  inPayload := 0
  inAvailable := false
  outAccepted := false
  releaseCount := 0
  releaseValid := false

/-- What is presented in the next step; the quiet input after the end of the list (log entry 2). -/
def nextInput (s : State) : StepInput :=
  match s.inputs with
  | [] => quietInput
  | x :: _ => x

/-- The state with the entry of the next step taken off the list. -/
def takeInput (s : State) : State := { s with inputs := s.inputs.tail, steps := s.steps + 1 }

/-- An idle step of the CommandProcessor: no state changes, and the result is a free value (R102; log entry 10). -/
def idleCommand (s : State) : State := { s with result := some (Config.idleResult s.steps) }

/-- A reset of the CommandProcessor (R38, R153, R155). -/
def resetProcessor (s : State) : State :=
  { s with
    verify := 1, pingSum := 0, inputOffset := 0, maccLatch := 0,
    input := Store.reset, filter := Store.reset,
    result := none, epoch := s.epoch + 1 }

/-- A reset of the FlowRestrictor (R38, R153, R155). -/
def resetRestrictor (s : State) : State := { s with credit := 0, gate := none }

/-- A reset event (R153): not a step, so no command runs and no element moves; a reset of the core resets both blocks
(R155; log entry 13). -/
def resetEvent (scope : ResetScope) (s : State) : State :=
  match scope with
  | .processor => resetProcessor s
  | .restrictor => resetRestrictor s
  | .core => resetRestrictor (resetProcessor s)

/-- The refusal of a reserved command (R69 to R71, R103). -/
def refusalOf (r : Reserved) : Refusal :=
  match r with
  | .reservedOp => .reservedOp
  | .unmappedId => .unmappedId
  | .wrongDirection => .wrongDirection

/-- The list of inputs with `c` issued as the next step's command, and every other signal left as it was. -/
def issueCommand (c : Command) (xs : List StepInput) : List StepInput :=
  match xs with
  | [] => [{ quietInput with valid := true, cmd := c }]
  | x :: rest => { x with reset := none, valid := true, cmd := c } :: rest

end Sys2Proof.Machine
end

