-- ==== Sys2Proof/Machine/Flags.lean ====
section
/-! DEFINITION. The core has no flags (R22); its one status bit is a function of `credit` (R34). -/

namespace Sys2Proof.Machine

/-- `releaseReady = (credit == 0)` (R34, D40). -/
def releaseReady (credit : Nat) : Bool := credit == 0

end Sys2Proof.Machine
end

