-- ==== Sys2Proof/Machine/Restrictor.lean ====
section
/-! DEFINITION. The FlowRestrictor's step (40_flow_restrictor.md): outputs from `credit` as it stands at the start of the
step, then the next credit (R80); and the producer's duty, which is on the environment (R95). -/

namespace Sys2Proof.Machine

/-- `fwd = (credit > 0) and in.available and out.accepted` (R81). -/
def forwards (credit : Nat) (x : StepInput) : Bool :=
  decide (0 < credit) && x.inAvailable && x.outAccepted

/-- `relAccept = release.requestValid and releaseReady` (R85). -/
def releaseAccepted (credit : Nat) (x : StepInput) : Bool := x.releaseValid && releaseReady credit

/-- The next credit (R86 to R88). -/
def nextCredit (credit : Nat) (x : StepInput) : Nat :=
  if releaseAccepted credit x then x.releaseCount.toNat
  else if forwards credit x then credit - 1
  else credit

/-- The outputs of a step (R82, R83, R34); the payload without a forward is a free value (log entry 10). -/
def gateOutputs (credit steps : Nat) (x : StepInput) : GateOutputs where
  inAccepted := forwards credit x
  outAvailable := forwards credit x
  outPayload := if forwards credit x then x.inPayload else Config.idlePayload steps
  releaseReady := releaseReady credit

/-- One FlowRestrictor step on the state (R97); it touches no state of the CommandProcessor (R141). -/
def restrictorStep (x : StepInput) (s : State) : State :=
  { s with credit := nextCredit s.credit x, gate := some (gateOutputs s.credit s.steps x) }

/-- The credit after an entry of the input list: the next credit after a step, 0 after a reset event that resets the
FlowRestrictor, and the credit as it was after a reset event that does not (R97, R155). -/
def creditAfter (credit : Nat) (x : StepInput) : Nat :=
  match x.reset with
  | none => nextCredit credit x
  | some .processor => credit
  | some .restrictor => 0
  | some .core => 0

/-- The payload of the offer that the latest step did not transfer, if it left one pending with the producer (R94). A reset
event is no step (R153), so it leaves `held` as it was (log entry 22). -/
def heldOffer (credit : Nat) (held : Option (BitVec Config.payloadWidth)) (x : StepInput) :
    Option (BitVec Config.payloadWidth) :=
  match x.reset with
  | some _ => held
  | none => if x.inAvailable && !forwards credit x then some x.inPayload else none

/-- A step that offers an element offers the payload `held`, if there is one (R95); withdrawing the offer is allowed, and a
reset event offers nothing. -/
def offerKept (held : Option (BitVec Config.payloadWidth)) (x : StepInput) : Bool :=
  match x.reset, held with
  | none, some p => !x.inAvailable || x.inPayload == p
  | none, none => true
  | some _, _ => true

/-- The producer's duty over the coming entries, where `held` is still pending with the producer (R95). -/
def producerStableFrom (credit : Nat) (held : Option (BitVec Config.payloadWidth)) (xs : List StepInput) : Bool :=
  match xs with
  | [] => true
  | x :: rest => offerKept held x && producerStableFrom (creditAfter credit x) (heldOffer credit held x) rest

/-- The producer's duty (R95): in every step in which it keeps `in.available` asserted after a step without a transfer, the
payload is that of the step before. It spans reset events, which are no steps (log entry 22). -/
def producerStable (credit : Nat) (xs : List StepInput) : Bool := producerStableFrom credit none xs

end Sys2Proof.Machine
end

