-- ==== Sys2Proof/Machine/Step.lean ====
section
/-! DEFINITION. One step of the core (R17, R98, R107): the FlowRestrictor's step, and at most one command; or a reset event. -/

namespace Sys2Proof.Machine

/-- One step. The two blocks touch disjoint state (R141), so the order in which they are written here does not matter. -/
def step (s : State) : Host.Outcome State Fault Refusal :=
  match (nextInput s).reset with
  | some scope => .next (resetEvent scope (takeInput s))
  | none =>
    if (nextInput s).valid then
      match decode (nextInput s).cmd with
      | .ok i => exec i (restrictorStep (nextInput s) (takeInput s))
      | .error r => .refused (refusalOf r)
    else .next (idleCommand (restrictorStep (nextInput s) (takeInput s)))

/-- `s` with the command whose bits are `w` presented in the next step (log entry 4). -/
def State.withFetchWord (s : State) (nbits w : Nat) : State :=
  { s with inputs := issueCommand (commandOfTableWord nbits w) s.inputs }

end Sys2Proof.Machine
end

