-- ==== Sys2Proof/Safety.lean ====
section
/-! DEFINITION. The terms claims are stated in: the invariant of the state, and runs of commands and
of the FlowRestrictor. -/

namespace Sys2Proof.Machine

/-- A store is as R27 to R32 say, its windows are aligned (R45), and its memory and its written set are in canonical form. -/
structure Store.Inv (st : Store) : Prop where
  /-- `S.n ≤ STORE_CAPACITY` (R27, R32) -/
  capacity : st.n ≤ Config.storeCapacity
  /-- an empty store has both pointers 0 (R32) -/
  empty : st.n = 0 → st.writePos = 0 ∧ st.windowBase = 0
  /-- the pointers of a store with words stay below `S.n` (R32) -/
  pointers : 0 < st.n → st.writePos < st.n ∧ st.windowBase < st.n
  /-- windows are aligned where `S.n` is a multiple of 4 (R45) -/
  aligned : st.n % 4 = 0 → st.windowBase % 4 = 0
  /-- the memory is in canonical form -/
  memory : Memory.wf st.buf = true
  /-- no word lies outside the word space (R43, R62) -/
  bounded : ∀ e ∈ st.buf, e.1 < Config.storeCapacity
  /-- the written set is in canonical form -/
  rising : risingIndices st.written = true
  /-- a word written since the last configuration is one of the words in use (R31, R62) -/
  inUse : ∀ i ∈ st.written, i < st.n
  /-- a word written since the last configuration has known contents (R46, R47) -/
  listed : ∀ i ∈ st.written, (Memory.read st.buf i).isSome = true

/-- The invariant of the machine: both stores, and a credit of COUNT_WIDTH bits (R33). -/
structure State.Inv (s : State) : Prop where
  input : s.input.Inv
  filter : s.filter.Inv
  credit : s.credit < 2 ^ Config.countWidth

/-- The commands `is` one after the other, one per step, as `exec` answers them (R56). -/
def runCommands (is : List Instr) (s : State) : Host.Outcome State Fault Refusal :=
  match is with
  | [] => .next s
  | i :: rest =>
    match exec i s with
    | .next t => runCommands rest t
    | .fault f => .fault f
    | .refused r => .refused r

/-- The FlowRestrictor over the signals of successive steps: its credit at the end and its outputs in each step (R97).
Every entry stands for a step; `StepInput.reset` is not read. -/
def runRestrictor (credit steps : Nat) (xs : List StepInput) : Nat × List GateOutputs :=
  match xs with
  | [] => (credit, [])
  | x :: rest =>
    ((runRestrictor (nextCredit credit x) (steps + 1) rest).1,
      gateOutputs credit steps x :: (runRestrictor (nextCredit credit x) (steps + 1) rest).2)

/-- How many elements were forwarded in a run. -/
def forwardCount (outs : List GateOutputs) : Nat := outs.countP fun o => o.outAvailable

/-- Every step of the entries `xs` offers an element and transfers none; reset events may stand between the steps. -/
def offersStalled (credit : Nat) (xs : List StepInput) : Bool :=
  match xs with
  | [] => true
  | x :: rest =>
    (x.reset.isSome || (x.inAvailable && !forwards credit x)) && offersStalled (creditAfter credit x) rest

/-- The command is a GET: it reads a register and nothing else (R52). -/
def isGet (i : Instr) : Bool :=
  match i with
  | .getVerify | .getMaccOut => true
  | .getInputLane0 | .getInputLane1 | .getInputLane2 | .getInputLane3 => true
  | .getFilterLane0 | .getFilterLane1 | .getFilterLane2 | .getFilterLane3 => true
  | .setVerify _ | .setInputNumWords _ | .setInputWord _ => false
  | .setFilterNumWords _ | .setFilterWord _ => false
  | .setInputOffset _ | .setAdvanceWindow => false
  | .ping _ _ _ => false

/-- The command is a PING, the trigger (R105). -/
def isPing (i : Instr) : Bool :=
  match i with
  | .getVerify | .getMaccOut => false
  | .getInputLane0 | .getInputLane1 | .getInputLane2 | .getInputLane3 => false
  | .getFilterLane0 | .getFilterLane1 | .getFilterLane2 | .getFilterLane3 => false
  | .setVerify _ | .setInputNumWords _ | .setInputWord _ => false
  | .setFilterNumWords _ | .setFilterWord _ => false
  | .setInputOffset _ | .setAdvanceWindow => false
  | .ping _ _ _ => true

/-- The command is a SET(VERIFY). -/
def isSetVerify (i : Instr) : Bool :=
  match i with
  | .getVerify | .getMaccOut => false
  | .getInputLane0 | .getInputLane1 | .getInputLane2 | .getInputLane3 => false
  | .getFilterLane0 | .getFilterLane1 | .getFilterLane2 | .getFilterLane3 => false
  | .setVerify _ => true
  | .setInputNumWords _ | .setInputWord _ => false
  | .setFilterNumWords _ | .setFilterWord _ => false
  | .setInputOffset _ | .setAdvanceWindow => false
  | .ping _ _ _ => false

/-- What a command adds to VERIFY (R111): the operand of SET(VERIFY), and nothing for every other command. -/
def verifyAddend (i : Instr) : Word :=
  match i with
  | .getVerify | .getMaccOut => 0
  | .getInputLane0 | .getInputLane1 | .getInputLane2 | .getInputLane3 => 0
  | .getFilterLane0 | .getFilterLane1 | .getFilterLane2 | .getFilterLane3 => 0
  | .setVerify v => v
  | .setInputNumWords _ | .setInputWord _ => 0
  | .setFilterNumWords _ | .setFilterWord _ => 0
  | .setInputOffset _ | .setAdvanceWindow => 0
  | .ping _ _ _ => 0

/-- The result the next PING returns after command `i`, if it would have been `prev` before it (R112). -/
def echoAfter (prev : Word) (i : Instr) : Word :=
  if isPing i then BitVec.ofNat 32 ((encodeIn0 i).toNat + (encodeIn1 i).toNat) else prev

/-- SET(*_NUM_WORDS, v) of a store. -/
def configureCommand (id : StoreId) (v : Word) : Instr :=
  match id with
  | .input => .setInputNumWords v
  | .filter => .setFilterNumWords v

/-- SET(*_WORD, v) of a store. -/
def appendCommand (id : StoreId) (v : Word) : Instr :=
  match id with
  | .input => .setInputWord v
  | .filter => .setFilterWord v

/-- GET(*_LANE_j) of a store. -/
def readbackCommand (id : StoreId) (j : Fin 4) : Instr :=
  match id, j with
  | .input, 0 => .getInputLane0
  | .input, 1 => .getInputLane1
  | .input, 2 => .getInputLane2
  | .input, 3 => .getInputLane3
  | .filter, 0 => .getFilterLane0
  | .filter, 1 => .getFilterLane1
  | .filter, 2 => .getFilterLane2
  | .filter, 3 => .getFilterLane3

/-- The spec fixes word `j` of the window, and it is `w` (R46, R48): an empty store reads 0, and a store whose count is a
multiple of 4 reads the word appended at `(windowBase + j) mod n` since the last configuration. -/
def windowWordKnown (st : Store) (j : Nat) (w : Word) : Prop :=
  (st.n = 0 ∧ w = 0) ∨
  (0 < st.n ∧ st.n % 4 = 0 ∧ (st.windowBase + j) % st.n ∈ st.written ∧
    Memory.read st.buf ((st.windowBase + j) % st.n) = some w)

/-- All four words of the window are known, and they are `ws 0` to `ws 3`. -/
def windowIs (st : Store) (ws : Nat → Word) : Prop := ∀ j < 4, windowWordKnown st j (ws j)

/-- Lane `m` of the 16 lanes of four window words (R49). -/
def laneOf (ws : Nat → Word) (m : Nat) : Int := ((ws (m / 4)).extractLsb' (8 * (m % 4)) 8).toInt

/-- The dot product of two windows with the offset added to every input lane, over the integers (R131). -/
def windowDot (offset : Int) (ins fls : Nat → Word) : Int :=
  ∑ m ∈ Finset.range 16, (offset + laneOf ins m) * laneOf fls m

/-- The refusal reasons that apply to a command, in the order of R142. -/
def refusalReasons (c : Command) : List Refusal :=
  (if 3 ≤ c.op.toNat then [.reservedOp] else []) ++
  (if c.op.toNat ≠ 2 ∧ 16 ≤ c.regId.toNat then [.unmappedId] else []) ++
  (if c.op.toNat = 0 ∧ c.regId.toNat ∉ [0, 6, 7, 8, 9, 10, 11, 12, 13, 14] then [.wrongDirection] else []) ++
  (if c.op.toNat = 1 ∧ c.regId.toNat ∉ [0, 1, 2, 3, 4, 5, 15] then [.wrongDirection] else []) ++
  (if c.op.toNat = 1 ∧ c.regId.toNat ∈ [1, 3] ∧ Config.storeCapacity < c.in0.toNat then [.capacityExceeded] else [])

end Sys2Proof.Machine
end

