-- ==== Sys2Proof/Certificates/Slice0/Obligations.lean ====
section
/-! DEFINITION. The statements about the machine, for the provers. In all of them the field `epoch` is the model's own
free-value counter (log entries 8, 11), so they say of it only that it has some value; `result` and `gate` hold what the
interface drives in the step (log entry 3). -/

open Sys2Proof Sys2Proof.Machine

/-! ## Encoding -/

/-- Some selectors written out from R77 decode to the commands they stand for. -/
def Obligations.WordsDecodeToTheirCommands : Prop :=
  ∀ x y : Word,
    decode { sel := 0b0000000000#10, in0 := x, in1 := y } = .ok .getVerify ∧
    decode { sel := 0b0000110000#10, in0 := x, in1 := y } = .ok .getMaccOut ∧
    decode { sel := 0b0001010000#10, in0 := x, in1 := y } = .ok .getInputLane3 ∧
    decode { sel := 0b0000011001#10, in0 := x, in1 := y } = .ok (.setFilterNumWords x) ∧
    decode { sel := 0b0001111001#10, in0 := x, in1 := y } = .ok .setAdvanceWindow ∧
    decode { sel := 0b1111111010#10, in0 := x, in1 := y } = .ok (.ping 127 x y)

/-- R77: the selector of every command, bit for bit; PING has every selector whose low three bits are 2. -/
def Obligations.SelectorsOfEveryCommand : Prop :=
  ∀ c : Command,
    (decode c = .ok .getVerify ↔ c.sel = 0x000) ∧
    (decode c = .ok .getMaccOut ↔ c.sel = 0x030) ∧
    (decode c = .ok .getInputLane0 ↔ c.sel = 0x038) ∧
    (decode c = .ok .getInputLane1 ↔ c.sel = 0x040) ∧
    (decode c = .ok .getInputLane2 ↔ c.sel = 0x048) ∧
    (decode c = .ok .getInputLane3 ↔ c.sel = 0x050) ∧
    (decode c = .ok .getFilterLane0 ↔ c.sel = 0x058) ∧
    (decode c = .ok .getFilterLane1 ↔ c.sel = 0x060) ∧
    (decode c = .ok .getFilterLane2 ↔ c.sel = 0x068) ∧
    (decode c = .ok .getFilterLane3 ↔ c.sel = 0x070) ∧
    (decode c = .ok (.setVerify c.in0) ↔ c.sel = 0x001) ∧
    (decode c = .ok (.setInputNumWords c.in0) ↔ c.sel = 0x009) ∧
    (decode c = .ok (.setInputWord c.in0) ↔ c.sel = 0x011) ∧
    (decode c = .ok (.setFilterNumWords c.in0) ↔ c.sel = 0x019) ∧
    (decode c = .ok (.setFilterWord c.in0) ↔ c.sel = 0x021) ∧
    (decode c = .ok (.setInputOffset c.in0) ↔ c.sel = 0x029) ∧
    (decode c = .ok .setAdvanceWindow ↔ c.sel = 0x079) ∧
    ((∃ r, decode c = .ok (.ping r c.in0 c.in1)) ↔ c.sel &&& 0x007 = 0x002)

/-- Decoding the encoding of any command gives it back, with every operand (R64 to R68). -/
def Obligations.DecodeOfEncodeIsIdentity : Prop :=
  ∀ i : Instr, decode (encode i) = .ok i

/-- The other direction: a command that decodes is encoded back to its own selector and to the operands it uses (R67, R68). -/
def Obligations.EncodeOfDecodeKeepsUsedBits : Prop :=
  ∀ (c : Command) (i : Instr), decode c = .ok i →
    encode i = { sel := c.sel, in0 := if usesIn0 i then c.in0 else 0, in1 := if usesIn1 i then c.in1 else 0 }

/-- A command decodes exactly if it is well formed: its op code, its register id and its direction are given a meaning (R66, R68). -/
def Obligations.DecodesExactlyIfWellFormed : Prop :=
  ∀ c : Command, (∃ i, decode c = .ok i) ↔ c.wellFormed = true

/-- R69: a step that is given an op code 3 to 7 is refused with ReservedOp. -/
def Obligations.ReservedOpCodesAreRefused : Prop :=
  ∀ s : State, (nextInput s).reset = none → (nextInput s).valid = true →
    3 ≤ (nextInput s).cmd.op.toNat → step s = .refused .reservedOp

/-- R70: GET of ids 1 to 5 and 15, and SET of ids 6 to 14, are refused with WrongDirection. -/
def Obligations.WrongDirectionsAreRefused : Prop :=
  ∀ s : State, (nextInput s).reset = none → (nextInput s).valid = true →
    (((nextInput s).cmd.op.toNat = 0 ∧
        ((1 ≤ (nextInput s).cmd.regId.toNat ∧ (nextInput s).cmd.regId.toNat ≤ 5) ∨ (nextInput s).cmd.regId.toNat = 15)) ∨
      ((nextInput s).cmd.op.toNat = 1 ∧ 6 ≤ (nextInput s).cmd.regId.toNat ∧ (nextInput s).cmd.regId.toNat ≤ 14)) →
    step s = .refused .wrongDirection

/-- R71: GET or SET of an id 16 to 127 is refused with UnmappedId. -/
def Obligations.UnmappedIdsAreRefused : Prop :=
  ∀ s : State, (nextInput s).reset = none → (nextInput s).valid = true →
    (nextInput s).cmd.op.toNat ≤ 1 → 16 ≤ (nextInput s).cmd.regId.toNat →
    step s = .refused .unmappedId

/-- R142: a command step is refused with the first reason that applies, and takes a next state where none applies. -/
def Obligations.FirstRefusalReasonIsReported : Prop :=
  ∀ s : State, (nextInput s).reset = none → (nextInput s).valid = true →
    (∀ r, (refusalReasons (nextInput s).cmd).head? = some r → step s = .refused r) ∧
    ((refusalReasons (nextInput s).cmd).head? = none → ∃ t, step s = .next t)

/-- R72: all 128 selectors with op = 2 decode as PING, and the register id makes no difference. -/
def Obligations.PingIgnoresTheRegisterId : Prop :=
  ∀ (r r' : RegId) (a b : Word) (s : State),
    decode { sel := r ++ (2 : OpCode), in0 := a, in1 := b } = .ok (.ping r a b) ∧
    exec (.ping r a b) s = exec (.ping r' a b) s

/-! ## The step, idle steps and reset -/

/-- A step with a command that decodes runs that command, on the state in which the entry is taken off the input list and
the FlowRestrictor has made its step (R98). -/
def Obligations.StepRunsTheDecodedCommand : Prop :=
  ∀ (s : State) (i : Instr), (nextInput s).reset = none → (nextInput s).valid = true →
    decode (nextInput s).cmd = .ok i →
      step s = exec i (restrictorStep (nextInput s) { s with inputs := s.inputs.tail, steps := s.steps + 1 })

/-- R102: a step with cmd.valid = 0 takes a next state, whatever the selector and the operands, and changes no
CommandProcessor state, MACC_LATCH included. The result in it is left open. -/
def Obligations.IdleStepKeepsTheProcessor : Prop :=
  ∀ s : State, (nextInput s).reset = none → (nextInput s).valid = false →
    ∃ t, step s = .next t ∧
      t.verify = s.verify ∧ t.pingSum = s.pingSum ∧ t.inputOffset = s.inputOffset ∧ t.maccLatch = s.maccLatch ∧
      t.input = s.input ∧ t.filter = s.filter

/-- R153: a reset event of the core sets every piece of state to its reset value, whatever command or element is presented beside it,
and these are the values of the state after reset. -/
def Obligations.CoreResetSetsEveryValue : Prop :=
  ∀ s : State, (nextInput s).reset = some .core →
    ∃ t, step s = .next t ∧
      t.verify = 1 ∧ t.pingSum = 0 ∧ t.maccLatch = 0 ∧ t.inputOffset = 0 ∧ t.credit = 0 ∧
      (∀ id, (t.store id).n = 0 ∧ (t.store id).writePos = 0 ∧ (t.store id).windowBase = 0 ∧ (t.store id).written = []) ∧
      State.reset.verify = t.verify ∧ State.reset.pingSum = t.pingSum ∧ State.reset.maccLatch = t.maccLatch ∧
      State.reset.inputOffset = t.inputOffset ∧ State.reset.credit = t.credit ∧
      State.reset.input = t.input ∧ State.reset.filter = t.filter

/-- R155: each block has its own reset event, which leaves the other block alone, and a reset of the core resets both; after a reset of the FlowRestrictor with
credit left, the next step is ready for a release and forwards nothing. -/
def Obligations.EachBlockResetsAlone : Prop :=
  ∀ s : State,
    ((nextInput s).reset = some .processor → ∃ t, step s = .next t ∧ t.credit = s.credit ∧
      t.verify = 1 ∧ t.pingSum = 0 ∧ t.maccLatch = 0 ∧ t.inputOffset = 0 ∧ t.input = Store.reset ∧ t.filter = Store.reset) ∧
    ((nextInput s).reset = some .restrictor → ∃ t, step s = .next t ∧ t.credit = 0 ∧
      t.verify = s.verify ∧ t.pingSum = s.pingSum ∧ t.maccLatch = s.maccLatch ∧ t.inputOffset = s.inputOffset ∧
      t.input = s.input ∧ t.filter = s.filter ∧
      ∀ x : StepInput, releaseReady t.credit = true ∧ forwards t.credit x = false) ∧
    ((nextInput s).reset = some .core → ∃ t, step s = .next t ∧ t.credit = 0 ∧
      t.verify = 1 ∧ t.pingSum = 0 ∧ t.maccLatch = 0 ∧ t.inputOffset = 0 ∧ t.input = Store.reset ∧ t.filter = Store.reset)

/-- The reset state has the invariant. -/
def Obligations.ResetStateHasTheInvariant : Prop := State.Inv State.reset

/-- Every step keeps the invariant: the store invariants of R32, aligned windows (R45), memories and written sets in
canonical form and inside the word space (R43, R62), and a credit of COUNT_WIDTH bits (R33). -/
def Obligations.EveryStepKeepsTheInvariant : Prop :=
  ∀ s t : State, s.Inv → step s = .next t → t.Inv

/-! ## The diagnostic registers -/

/-- R108: SET(VERIFY, v) adds v to VERIFY modulo 2^32, returns 0 and changes nothing else. -/
def Obligations.SetVerifyAccumulates : Prop :=
  ∀ (v x : Word) (s : State),
    decode { sel := 0x001, in0 := v, in1 := x } = .ok (.setVerify v) ∧
    ∃ e, exec (.setVerify v) s =
      .next { s with verify := BitVec.ofNat 32 (s.verify.toNat + v.toNat), result := some 0, epoch := e }

/-- R109: GET(VERIFY) returns VERIFY and changes nothing. -/
def Obligations.GetVerifyReturnsVerify : Prop :=
  ∀ (x y : Word) (s : State),
    decode { sel := 0x000, in0 := x, in1 := y } = .ok .getVerify ∧
    exec .getVerify s = .next { s with result := some s.verify }

/-- R110: PING(a, b) returns the previous PINGSUM, stores a + b modulo 2^32, latches the MAC value of the state at the
start of the step, and changes nothing else. -/
def Obligations.PingEchoesAndTicks : Prop :=
  ∀ (sel : Selector) (a b : Word) (s : State), sel &&& 0x007 = 0x002 →
    ∃ r e, decode { sel := sel, in0 := a, in1 := b } = .ok (.ping r a b) ∧
      exec (.ping r a b) s =
        .next { s with
          result := some s.pingSum
          pingSum := BitVec.ofNat 32 (a.toNat + b.toNat)
          maccLatch := macValue s
          epoch := e }

/-- R111: from reset, after any SET(VERIFY)s with any GETs and PINGs between them, GET(VERIFY) returns 1 plus the operands,
modulo 2^32. -/
def Obligations.VerifyAccumulationLaw : Prop :=
  ∀ is : List Instr, (∀ i ∈ is, isSetVerify i = true ∨ isGet i = true ∨ isPing i = true) →
    ∃ t, runCommands (is ++ [.getVerify]) State.reset = .next t ∧
      t.result = some (BitVec.ofNat 32 (1 + (is.map fun i => (verifyAddend i).toNat).sum))

/-- R112: from reset, with any GETs and SETs between, a PING returns the sum of the operands of the PING before it, and 0 if
there was none. -/
def Obligations.PingDelayLaw : Prop :=
  ∀ (is : List Instr) (s : State) (r : RegId) (a b : Word), runCommands is State.reset = .next s →
    ∃ t, exec (.ping r a b) s = .next t ∧ t.result = some (is.foldl echoAfter 0)

/-! ## The windowed stores -/

/-- R113: SET(INPUT_NUM_WORDS, v) declares uint(v) words, resets both pointers, makes every word unwritten, returns 0 and
changes nothing else (the words themselves included); above STORE_CAPACITY it is refused. -/
def Obligations.ConfigureInputStore : Prop :=
  ∀ (v x : Word) (s : State),
    decode { sel := 0x009, in0 := v, in1 := x } = .ok (.setInputNumWords v) ∧
    (v.toNat ≤ Config.storeCapacity → ∃ e, exec (.setInputNumWords v) s =
      .next { s with
        input := { n := v.toNat, writePos := 0, windowBase := 0, buf := s.input.buf, written := [] }
        result := some 0
        epoch := e }) ∧
    (Config.storeCapacity < v.toNat → exec (.setInputNumWords v) s = .refused .capacityExceeded)

/-- R114: SET(FILTER_NUM_WORDS, v), the same for FilterStore. -/
def Obligations.ConfigureFilterStore : Prop :=
  ∀ (v x : Word) (s : State),
    decode { sel := 0x019, in0 := v, in1 := x } = .ok (.setFilterNumWords v) ∧
    (v.toNat ≤ Config.storeCapacity → ∃ e, exec (.setFilterNumWords v) s =
      .next { s with
        filter := { n := v.toNat, writePos := 0, windowBase := 0, buf := s.filter.buf, written := [] }
        result := some 0
        epoch := e }) ∧
    (Config.storeCapacity < v.toNat → exec (.setFilterNumWords v) s = .refused .capacityExceeded)

/-- R115: SET(INPUT_WORD, v) stores v at writePos, marks that word written, moves writePos on by one modulo n and returns 0;
no other word, no other field of the store and no other state changes; with n = 0 it changes nothing. -/
def Obligations.AppendInputWord : Prop :=
  ∀ (v x : Word) (s : State),
    decode { sel := 0x011, in0 := v, in1 := x } = .ok (.setInputWord v) ∧
    ∃ e st, exec (.setInputWord v) s = .next { s with input := st, result := some 0, epoch := e } ∧
      (s.input.n = 0 → st = s.input) ∧
      (0 < s.input.n →
        st.n = s.input.n ∧ st.windowBase = s.input.windowBase ∧
        st.writePos = (s.input.writePos + 1) % s.input.n ∧
        Memory.read st.buf s.input.writePos = some v ∧
        (∀ i, i ≠ s.input.writePos → Memory.read st.buf i = Memory.read s.input.buf i) ∧
        (∀ i, i ∈ st.written ↔ i = s.input.writePos ∨ i ∈ s.input.written))

/-- R116: SET(FILTER_WORD, v), the same for FilterStore. -/
def Obligations.AppendFilterWord : Prop :=
  ∀ (v x : Word) (s : State),
    decode { sel := 0x021, in0 := v, in1 := x } = .ok (.setFilterWord v) ∧
    ∃ e st, exec (.setFilterWord v) s = .next { s with filter := st, result := some 0, epoch := e } ∧
      (s.filter.n = 0 → st = s.filter) ∧
      (0 < s.filter.n →
        st.n = s.filter.n ∧ st.windowBase = s.filter.windowBase ∧
        st.writePos = (s.filter.writePos + 1) % s.filter.n ∧
        Memory.read st.buf s.filter.writePos = some v ∧
        (∀ i, i ≠ s.filter.writePos → Memory.read st.buf i = Memory.read s.filter.buf i) ∧
        (∀ i, i ∈ st.written ↔ i = s.filter.writePos ∨ i ∈ s.filter.written))

/-- R117 to R120: each input readback returns the whole word of the window it names, 0 if the store is empty, and changes
nothing; where the word is unspecified it returns some word. -/
def Obligations.InputReadbacks : Prop :=
  ∀ (x y : Word) (s : State),
    (decode { sel := 0x038, in0 := x, in1 := y } = .ok .getInputLane0 ∧
      ∃ w, exec .getInputLane0 s = .next { s with result := some w } ∧ ∀ u, windowWordKnown s.input 0 u → w = u) ∧
    (decode { sel := 0x040, in0 := x, in1 := y } = .ok .getInputLane1 ∧
      ∃ w, exec .getInputLane1 s = .next { s with result := some w } ∧ ∀ u, windowWordKnown s.input 1 u → w = u) ∧
    (decode { sel := 0x048, in0 := x, in1 := y } = .ok .getInputLane2 ∧
      ∃ w, exec .getInputLane2 s = .next { s with result := some w } ∧ ∀ u, windowWordKnown s.input 2 u → w = u) ∧
    (decode { sel := 0x050, in0 := x, in1 := y } = .ok .getInputLane3 ∧
      ∃ w, exec .getInputLane3 s = .next { s with result := some w } ∧ ∀ u, windowWordKnown s.input 3 u → w = u)

/-- R121 to R124: the filter readbacks, likewise. -/
def Obligations.FilterReadbacks : Prop :=
  ∀ (x y : Word) (s : State),
    (decode { sel := 0x058, in0 := x, in1 := y } = .ok .getFilterLane0 ∧
      ∃ w, exec .getFilterLane0 s = .next { s with result := some w } ∧ ∀ u, windowWordKnown s.filter 0 u → w = u) ∧
    (decode { sel := 0x060, in0 := x, in1 := y } = .ok .getFilterLane1 ∧
      ∃ w, exec .getFilterLane1 s = .next { s with result := some w } ∧ ∀ u, windowWordKnown s.filter 1 u → w = u) ∧
    (decode { sel := 0x068, in0 := x, in1 := y } = .ok .getFilterLane2 ∧
      ∃ w, exec .getFilterLane2 s = .next { s with result := some w } ∧ ∀ u, windowWordKnown s.filter 2 u → w = u) ∧
    (decode { sel := 0x070, in0 := x, in1 := y } = .ok .getFilterLane3 ∧
      ∃ w, exec .getFilterLane3 s = .next { s with result := some w } ∧ ∀ u, windowWordKnown s.filter 3 u → w = u)

/-- R125: SET(ADVANCE_WINDOW) moves both window bases on by 4 words modulo n, leaves an empty store alone, returns 0 and
changes nothing else. -/
def Obligations.AdvanceMovesBothWindows : Prop :=
  ∀ (x y : Word) (s : State),
    decode { sel := 0x079, in0 := x, in1 := y } = .ok .setAdvanceWindow ∧
    ∃ e, exec .setAdvanceWindow s =
      .next { s with
        input := { s.input with
          windowBase := if s.input.n = 0 then s.input.windowBase else (s.input.windowBase + 4) % s.input.n }
        filter := { s.filter with
          windowBase := if s.filter.n = 0 then s.filter.windowBase else (s.filter.windowBase + 4) % s.filter.n }
        result := some 0
        epoch := e }

/-- R127: after a configuration of n words (n a multiple of 4), n appends and k advances with k < n/4, the four readbacks
return the words appended as number 4k to 4k+3. -/
def Obligations.ReadbackLaw : Prop :=
  ∀ (id : StoreId) (ws : List Word) (k : Nat) (j : Fin 4) (s : State),
    ws.length % 4 = 0 → ws.length ≤ Config.storeCapacity → ws.length < 2 ^ 32 → k < ws.length / 4 →
    ∃ t u, runCommands (configureCommand id (BitVec.ofNat 32 ws.length) ::
        (ws.map (appendCommand id) ++ List.replicate k .setAdvanceWindow)) s = .next t ∧
      exec (readbackCommand id j) t = .next u ∧ u.result = ws[4 * k + j.val]?

/-- R128: n/4 advances bring a window at 0 back to 0, for a store whose n is a positive multiple of 4; and after n + m
appends following a configuration, m ≤ n, words 0 to m-1 hold the last m appended words and the others the earlier ones. -/
def Obligations.WrapLaw : Prop :=
  (∀ (id : StoreId) (s : State), 0 < (s.store id).n → (s.store id).n % 4 = 0 → (s.store id).windowBase = 0 →
    ∃ t, runCommands (List.replicate ((s.store id).n / 4) .setAdvanceWindow) s = .next t ∧
      (t.store id).windowBase = 0) ∧
  (∀ (id : StoreId) (ws vs : List Word) (s : State),
    ws.length ≤ Config.storeCapacity → ws.length < 2 ^ 32 → vs.length ≤ ws.length →
    ∃ t, runCommands (configureCommand id (BitVec.ofNat 32 ws.length) ::
        (ws.map (appendCommand id) ++ vs.map (appendCommand id))) s = .next t ∧
      (∀ i, i < vs.length → Memory.read (t.store id).buf i = vs[i]?) ∧
      (∀ i, vs.length ≤ i → i < ws.length → Memory.read (t.store id).buf i = ws[i]?) ∧
      (∀ i, i < ws.length → i ∈ (t.store id).written))

/-- A word appended into the current window reads back in the next step, with no PING (R160). -/
def Obligations.AppendedWordReadsBackAtOnce : Prop :=
  ∀ (id : StoreId) (v : Word) (j : Fin 4) (s : State),
    0 < (s.store id).n → (s.store id).n % 4 = 0 →
    ((s.store id).windowBase + j.val) % (s.store id).n = (s.store id).writePos →
    ∃ t u, exec (appendCommand id v) s = .next t ∧ exec (readbackCommand id j) t = .next u ∧ u.result = some v

/-! ## The MaccUnit -/

/-- R129: SET(INPUT_OFFSET, v) stores all 32 bits of v, returns 0 and changes nothing else. -/
def Obligations.SetInputOffsetStoresTheWord : Prop :=
  ∀ (v x : Word) (s : State),
    decode { sel := 0x029, in0 := v, in1 := x } = .ok (.setInputOffset v) ∧
    ∃ e, exec (.setInputOffset v) s = .next { s with inputOffset := v, result := some 0, epoch := e }

/-- R130: GET(MACC_OUT) returns MACC_LATCH and changes nothing. -/
def Obligations.GetMaccOutReturnsTheLatch : Prop :=
  ∀ (x y : Word) (s : State),
    decode { sel := 0x030, in0 := x, in1 := y } = .ok .getMaccOut ∧
    exec .getMaccOut s = .next { s with result := some s.maccLatch }

/-- R131: a PING latches the dot product of the two windows of the state at the start of its step, the offset added to
every input lane, modulo 2^32, where the spec fixes the window words. -/
def Obligations.PingLatchesTheDotProduct : Prop :=
  ∀ (r : RegId) (a b : Word) (s : State) (ins fls : Nat → Word), windowIs s.input ins → windowIs s.filter fls →
    ∃ t, exec (.ping r a b) s = .next t ∧
      t.maccLatch = BitVec.ofInt 32 (windowDot s.inputOffset.toInt ins fls)

/-- R134: with both stores empty a PING latches 0 whatever the offset; and from reset, GET(MACC_OUT) returns 0 after any
GETs, advances and PINGs. -/
def Obligations.EmptyStoresGiveZero : Prop :=
  (∀ (r : RegId) (a b : Word) (s : State), s.input.n = 0 → s.filter.n = 0 →
    ∃ t, exec (.ping r a b) s = .next t ∧ t.maccLatch = 0) ∧
  (∀ is : List Instr, (∀ i ∈ is, isGet i = true ∨ i = .setAdvanceWindow ∨ isPing i = true) →
    ∃ t, runCommands (is ++ [.getMaccOut]) State.reset = .next t ∧ t.result = some 0)

/-- R135, with the reading of log entry 9 (DEDUCED) where the input window is unspecified: an empty FilterStore gives 0; an
empty InputStore leaves the sum of the offset times the filter lanes, which is not 0 in general. -/
def Obligations.OneEmptyStore : Prop :=
  (∀ (r : RegId) (a b : Word) (s : State), s.filter.n = 0 →
    ∃ t, exec (.ping r a b) s = .next t ∧ t.maccLatch = 0) ∧
  (∀ (r : RegId) (a b : Word) (s : State) (fls : Nat → Word), s.input.n = 0 → 0 < s.filter.n → windowIs s.filter fls →
    ∃ t, exec (.ping r a b) s = .next t ∧
      t.maccLatch = BitVec.ofInt 32 (∑ m ∈ Finset.range 16, s.inputOffset.toInt * laneOf fls m)) ∧
  (∃ (r : RegId) (a b : Word) (s t : State), s.input.n = 0 ∧ 0 < s.filter.n ∧
    exec (.ping r a b) s = .next t ∧ t.maccLatch ≠ 0)

/-- R136: for an offset in [-128, 127] the bounds on every term, lane, product and the sum hold, and the latched value is the
exact integer sum. -/
def Obligations.NoWrapForTestedOffsets : Prop :=
  ∀ (r : RegId) (a b : Word) (s : State) (ins fls : Nat → Word), windowIs s.input ins → windowIs s.filter fls →
    -128 ≤ s.inputOffset.toInt → s.inputOffset.toInt ≤ 127 →
    (∀ m < 16,
      -256 ≤ s.inputOffset.toInt + laneOf ins m ∧ s.inputOffset.toInt + laneOf ins m ≤ 254 ∧
      -128 ≤ laneOf fls m ∧ laneOf fls m ≤ 127 ∧
      |(s.inputOffset.toInt + laneOf ins m) * laneOf fls m| ≤ 32768) ∧
    |windowDot s.inputOffset.toInt ins fls| ≤ 524288 ∧
    ∃ t, exec (.ping r a b) s = .next t ∧ t.maccLatch.toInt = windowDot s.inputOffset.toInt ins fls

/-- R133: GET(MACC_OUT) returns the same value before and after any commands without a PING among them. -/
def Obligations.LatchIsStableBetweenPings : Prop :=
  ∀ (is : List Instr) (s t : State), (∀ i ∈ is, isPing i = false) → runCommands is s = .next t →
    ∃ u w, exec .getMaccOut s = .next u ∧ exec .getMaccOut t = .next w ∧ u.result = w.result

/-- A step writes MACC_LATCH only if it is a PING or a reset of the CommandProcessor (R105, R137). -/
def Obligations.OnlyPingOrResetWritesTheLatch : Prop :=
  ∀ s t : State, step s = .next t → t.maccLatch ≠ s.maccLatch →
    (nextInput s).reset = some .core ∨ (nextInput s).reset = some .processor ∨
    ((nextInput s).reset = none ∧ (nextInput s).valid = true ∧ (nextInput s).cmd.op = 2)

/-- The visibility law (R132): after commands `ys` without a PING, a PING at a state whose windows are known, and commands
`zs` without a PING, GET(MACC_OUT) returns the dot product at that PING; up to that PING it returned the latch from before. -/
def Obligations.ResultVisibleAfterThePing : Prop :=
  ∀ (ys zs : List Instr) (r : RegId) (a b : Word) (s u t : State) (ins fls : Nat → Word),
    (∀ i ∈ ys, isPing i = false) → (∀ i ∈ zs, isPing i = false) →
    runCommands ys s = .next u → windowIs u.input ins → windowIs u.filter fls →
    runCommands (.ping r a b :: zs) u = .next t →
    (∃ w, exec .getMaccOut u = .next w ∧ w.result = some s.maccLatch) ∧
    (∃ w, exec .getMaccOut t = .next w ∧ w.result = some (BitVec.ofInt 32 (windowDot u.inputOffset.toInt ins fls)))

/-- The boot order of R156 and the chunks of R159: after configuring and loading both stores, setting the offset and k
advances, a PING and GET(MACC_OUT) return the dot product of the k-th windows of the loaded words. -/
def Obligations.LoadedStoresGiveTheDotProduct : Prop :=
  ∀ (ws fs : List Word) (offset : Word) (k : Nat) (r : RegId) (a b : Word) (s : State),
    0 < ws.length → ws.length % 4 = 0 → ws.length ≤ Config.storeCapacity → ws.length < 2 ^ 32 →
    0 < fs.length → fs.length % 4 = 0 → fs.length ≤ Config.storeCapacity → fs.length < 2 ^ 32 →
    ∃ t, runCommands ([.setInputNumWords (BitVec.ofNat 32 ws.length), .setFilterNumWords (BitVec.ofNat 32 fs.length)]
        ++ ws.map .setInputWord ++ fs.map .setFilterWord ++ [.setInputOffset offset]
        ++ List.replicate k .setAdvanceWindow ++ [.ping r a b, .getMaccOut]) s = .next t ∧
      t.result = some (BitVec.ofInt 32 (windowDot offset.toInt
        (fun j => ws.getD ((4 * k + j) % ws.length) 0) (fun j => fs.getD ((4 * k + j) % fs.length) 0)))

/-- The MAC does not depend on which bits of a word are which lane, as long as both stores use the same layout (R44). -/
def Obligations.MacIndependentOfLaneLayout : Prop :=
  ∀ (σ : Equiv.Perm (Fin 4)) (offset : Int) (ins fls ins' fls' : Nat → Word),
    (∀ (j : Nat) (k : Fin 4), laneOf ins' (4 * j + k.val) = laneOf ins (4 * j + (σ k).val) ∧
      laneOf fls' (4 * j + k.val) = laneOf fls (4 * j + (σ k).val)) →
    ∀ (r : RegId) (a b : Word) (s t : State), s.inputOffset.toInt = offset → t.inputOffset.toInt = offset →
      windowIs s.input ins → windowIs s.filter fls → windowIs t.input ins' → windowIs t.filter fls' →
      ∃ s' t', exec (.ping r a b) s = .next s' ∧ exec (.ping r a b) t = .next t' ∧ s'.maccLatch = t'.maccLatch

/-! ## Frames over all commands -/

/-- Every GET changes its result alone, and GETs agree as long as no SET and no PING comes between (R52, R53): whatever
earlier result, FlowRestrictor state and input list the second one finds. The agreement on unspecified words is the
model's reading of R53 (log entry 8). -/
def Obligations.GetsArePureAndAgree : Prop :=
  ∀ (i : Instr) (s : State), isGet i = true →
    ∃ v, exec i s = .next { s with result := some v } ∧
      ∀ (p : Option Word) (c : Nat) (g : Option GateOutputs) (xs : List StepInput) (k : Nat),
        exec i { s with result := p, credit := c, gate := g, inputs := xs, steps := k } =
          .next { s with result := some v, credit := c, gate := g, inputs := xs, steps := k }

/-- SET(INPUT_NUM_WORDS), SET(FILTER_NUM_WORDS) and SET(INPUT_OFFSET) issued twice leave the state that issuing them once
leaves, the model's free-value counter apart (R53). -/
def Obligations.ConfigurationsAreIdempotent : Prop :=
  ∀ (i : Instr) (v : Word) (s t : State),
    i = .setInputNumWords v ∨ i = .setFilterNumWords v ∨ i = .setInputOffset v →
    exec i s = .next t → ∃ e, exec i t = .next { t with epoch := e }

/-- Which command writes which register (R23 to R29): every other command leaves it as it was. -/
def Obligations.RegistersAreWrittenOnlyByTheirCommands : Prop :=
  ∀ (i : Instr) (s t : State), exec i s = .next t →
    (isSetVerify i = false → t.verify = s.verify) ∧
    (isPing i = false → t.pingSum = s.pingSum ∧ t.maccLatch = s.maccLatch) ∧
    ((∀ v, i ≠ .setInputOffset v) → t.inputOffset = s.inputOffset) ∧
    ((∀ v, i ≠ .setInputNumWords v) →
      t.input.n = s.input.n ∧
      ((∀ v, i ≠ .setInputWord v) → t.input.writePos = s.input.writePos ∧ t.input.written = s.input.written) ∧
      (i ≠ .setAdvanceWindow → t.input.windowBase = s.input.windowBase)) ∧
    ((∀ v, i ≠ .setFilterNumWords v) →
      t.filter.n = s.filter.n ∧
      ((∀ v, i ≠ .setFilterWord v) → t.filter.writePos = s.filter.writePos ∧ t.filter.written = s.filter.written) ∧
      (i ≠ .setAdvanceWindow → t.filter.windowBase = s.filter.windowBase))

/-- Only an append writes a word of a store, and only the word at that store's write pointer, and only if the store has
words (R30, R47): every other word of both stores reads as before. -/
def Obligations.OnlyAppendsWriteWords : Prop :=
  ∀ (i : Instr) (s t : State), exec i s = .next t →
    ∀ (id : StoreId) (a : Nat),
      ((∀ v, i ≠ appendCommand id v) ∨ (s.store id).n = 0 ∨ a ≠ (s.store id).writePos) →
      Memory.read (t.store id).buf a = Memory.read (s.store id).buf a

/-- A command and the FlowRestrictor do not interact (R141): no command reads or writes the credit, the gate's outputs, the
coming inputs or the count of steps, and the FlowRestrictor's step reads the credit and its signals alone and writes nothing
of the CommandProcessor's. That two runs that differ only in those fields agree on unspecified words too is the model's choice
(log entry 8), and so is the payload without a forward, a free value per step (log entry 10). -/
def Obligations.BlocksDoNotInteract : Prop :=
  ∀ (i : Instr) (s : State) (x : StepInput),
    (∀ (c : Nat) (g : Option GateOutputs) (xs : List StepInput) (k : Nat),
      exec i { s with credit := c, gate := g, inputs := xs, steps := k } =
        match exec i s with
        | .next t => .next { t with credit := c, gate := g, inputs := xs, steps := k }
        | .fault f => .fault f
        | .refused r => .refused r) ∧
    (∀ t, exec i s = .next t → t.credit = s.credit ∧ t.gate = s.gate ∧ t.inputs = s.inputs ∧ t.steps = s.steps) ∧
    restrictorStep x s = { s with credit := nextCredit s.credit x, gate := some (gateOutputs s.credit s.steps x) }

/-! ## The FlowRestrictor -/

/-- R97: in every step that is no reset event, the outputs and the next credit are those of the FlowRestrictor's step
function on the credit at the start of the step. Without a forward the payload is left open. -/
def Obligations.StepTakesTheRestrictorStep : Prop :=
  ∀ (s t : State), (nextInput s).reset = none → step s = .next t →
    let x := nextInput s
    let ready : Bool := s.credit == 0
    let fwd : Bool := decide (0 < s.credit) && x.inAvailable && x.outAccepted
    let accept : Bool := x.releaseValid && ready
    t.credit = (if accept then x.releaseCount.toNat else if fwd then s.credit - 1 else s.credit) ∧
    ∃ p, t.gate = some { inAccepted := fwd, outAvailable := fwd, outPayload := p, releaseReady := ready } ∧
      (fwd = true → p = x.inPayload)

/-- R84: in every step the input transfers, the output transfers and fwd = 1, all three or none, and the element that
leaves is the element that arrives. -/
def Obligations.TransfersCoincide : Prop :=
  ∀ (credit steps : Nat) (x : StepInput),
    (x.inAvailable && (gateOutputs credit steps x).inAccepted) = forwards credit x ∧
    ((gateOutputs credit steps x).outAvailable && x.outAccepted) = forwards credit x ∧
    (forwards credit x = true → (gateOutputs credit steps x).outPayload = x.inPayload)

/-- R88: a release and a forward never happen in one step, and with neither the credit keeps its value. -/
def Obligations.CreditHolds : Prop :=
  ∀ (credit : Nat) (x : StepInput),
    ¬(releaseAccepted credit x = true ∧ forwards credit x = true) ∧
    (releaseAccepted credit x = false → forwards credit x = false → nextCredit credit x = credit)

/-- R89: with credit 0 both channels are blocked whatever the inputs, and without a release they stay blocked and
releaseReady stays 1 in every step. -/
def Obligations.IdleGateBlocksForEver : Prop :=
  (∀ (steps : Nat) (x : StepInput),
    (gateOutputs 0 steps x).outAvailable = false ∧ (gateOutputs 0 steps x).inAccepted = false) ∧
  (∀ (steps : Nat) (xs : List StepInput), (∀ x ∈ xs, x.releaseValid = false) →
    (runRestrictor 0 steps xs).1 = 0 ∧
    ∀ o ∈ (runRestrictor 0 steps xs).2, o.outAvailable = false ∧ o.inAccepted = false ∧ o.releaseReady = true)

/-- R90: a request made while credit > 0 is rejected and has no effect on any later step: whatever is or is not requested,
the next credit, the two handshakes, releaseReady and the payload of a forward are those of the same step. The payload without
a forward is left open (R82). -/
def Obligations.BusyRequestHasNoEffect : Prop :=
  ∀ (credit steps : Nat) (x : StepInput) (requested : Bool) (count : BitVec Config.countWidth), 0 < credit →
    let y : StepInput := { x with releaseValid := requested, releaseCount := count }
    let o := gateOutputs credit steps x
    let o' := gateOutputs credit steps y
    releaseAccepted credit y = false ∧ releaseReady credit = false ∧
    nextCredit credit y = nextCredit credit x ∧
    o'.inAccepted = o.inAccepted ∧ o'.outAvailable = o.outAvailable ∧ o'.releaseReady = o.releaseReady ∧
    (forwards credit x = true → o'.outPayload = o.outPayload)

/-- R91: a release of 0 while idle is accepted, leaves credit 0, forwards nothing, and releaseReady is 1 then and next. -/
def Obligations.ReleaseOfZeroIsAccepted : Prop :=
  ∀ (steps : Nat) (x : StepInput), x.releaseValid = true → x.releaseCount = 0 →
    releaseAccepted 0 x = true ∧ nextCredit 0 x = 0 ∧ forwards 0 x = false ∧
    (gateOutputs 0 steps x).releaseReady = true ∧ releaseReady (nextCredit 0 x) = true

/-- R92: the step that accepts a release forwards nothing; the loaded credit allows a forward in the next step. -/
def Obligations.AcceptingStepForwardsNothing : Prop :=
  ∀ (credit : Nat) (x y : StepInput), releaseAccepted credit x = true →
    credit = 0 ∧ forwards credit x = false ∧
    (x.releaseCount.toNat ≠ 0 → y.inAvailable = true → y.outAccepted = true → forwards (nextCredit credit x) y = true)

/-- R93: after a release of c > 0 is accepted, as long as fewer than c elements have been forwarded every step is busy
(releaseReady 0, no request accepted) and the credit is what is left; the step of the c-th forward is busy too, and after it
releaseReady is 1. -/
def Obligations.ReleaseForwardsExactlyItsCount : Prop :=
  ∀ (steps : Nat) (x : StepInput) (xs : List StepInput), releaseAccepted 0 x = true → 0 < x.releaseCount.toNat →
    let run := runRestrictor (nextCredit 0 x) steps
    (forwardCount (run xs).2 < x.releaseCount.toNat →
      (∀ o ∈ (run xs).2, o.releaseReady = false) ∧ (run xs).1 = x.releaseCount.toNat - forwardCount (run xs).2) ∧
    (∀ y, forwardCount (run xs).2 + 1 = x.releaseCount.toNat → forwardCount (run (xs ++ [y])).2 = x.releaseCount.toNat →
      (∀ o ∈ (run (xs ++ [y])).2, o.releaseReady = false) ∧ (run (xs ++ [y])).1 = 0 ∧
      releaseReady (run (xs ++ [y])).1 = true)

/-- The payloads that leave are the payloads of the accepted offers, in order, none dropped and none repeated (R57). -/
def Obligations.ArrivalOrderIsKept : Prop :=
  ∀ (credit steps : Nat) (xs : List StepInput),
    ((runRestrictor credit steps xs).2.filterMap fun o => if o.outAvailable then some o.outPayload else none) =
      ((xs.zip (runRestrictor credit steps xs).2).filterMap fun p =>
        if p.1.inAvailable && p.2.inAccepted then some p.1.inPayload else none)

/-- Throughput (R165): at most one element passes in a step, so c forwards need at least c steps; and with an offer and a
ready consumer in every step, a credit of c is used up in exactly c steps. -/
def Obligations.CreditUsedUpInExactlyItsSteps : Prop :=
  ∀ (credit steps : Nat) (xs : List StepInput),
    forwardCount (runRestrictor credit steps xs).2 ≤ xs.length ∧
    (xs.length = credit → (∀ x ∈ xs, x.inAvailable = true ∧ x.outAccepted = true) →
      forwardCount (runRestrictor credit steps xs).2 = credit ∧ (runRestrictor credit steps xs).1 = 0)

/-- In every step and in every reset event the credit moves as R97 and R155 say, whatever command is presented beside it. That
a reset event is an entry in place of a step is the model's reading (log entry 13). -/
def Obligations.EveryEntryMovesTheCredit : Prop :=
  ∀ s t : State, step s = .next t → t.credit = creditAfter s.credit (nextInput s)

/-- The requester may change release.count in any step (R95): the count is read only in the step that accepts it (R86). In
every other step another count gives the same next credit, handshakes and releaseReady, and the same payload of a forward. -/
def Obligations.CountIsReadOnlyOnAcceptance : Prop :=
  ∀ (credit steps : Nat) (x : StepInput) (count : BitVec Config.countWidth),
    let y : StepInput := { x with releaseCount := count }
    let o := gateOutputs credit steps x
    let o' := gateOutputs credit steps y
    releaseAccepted credit y = releaseAccepted credit x ∧
    (releaseAccepted credit x = false → nextCredit credit y = nextCredit credit x) ∧
    o'.inAccepted = o.inAccepted ∧ o'.outAvailable = o.outAvailable ∧ o'.releaseReady = o.releaseReady ∧
    (forwards credit x = true → o'.outPayload = o.outPayload)

/-- If the producer keeps its duty (R95), an element that it offers in every step, and that no step before transfers, leaves
with the payload of the first offer: nothing is held in the gate (R94). Reset events may stand between the steps; that the duty
spans them is the model's reading (log entry 22). -/
def Obligations.HeldOfferLeavesUnchanged : Prop :=
  ∀ (credit steps : Nat) (x y : StepInput) (xs : List StepInput), x.reset = none → y.reset = none →
    offersStalled credit (x :: xs) = true → producerStable credit (x :: xs ++ [y]) = true →
    forwards ((x :: xs).foldl creditAfter credit) y = true →
    (gateOutputs ((x :: xs).foldl creditAfter credit) steps y).outPayload = x.inPayload
end

