-- ==== Sys2Proof/Laws/Memory.lean ====
section
/-! SUPPORT. The laws of a store's memory and of its written set: read after write, and the canonical form is kept. -/

namespace Sys2Proof.Machine

/-- A read after a write to the same word gives the word written (R47). -/
@[simp] theorem read_write_same (m : Memory) (i : Nat) (v : Word) :
    Memory.read (Memory.write m i v) i = some v := by
  induction m with
  | nil => simp [Memory.write, Memory.read]
  | cons e m ih =>
    obtain ⟨a, w⟩ := e
    unfold Memory.write
    split
    · simp [Memory.read]
    · split
      · simp [Memory.read]
      · have hne : a ≠ i := by omega
        simp [Memory.read, hne, ih]

/-- A write leaves every other word alone (R47). -/
theorem read_write_other (m : Memory) (i j : Nat) (v : Word) (h : j ≠ i) :
    Memory.read (Memory.write m i v) j = Memory.read m j := by
  have hne : i ≠ j := fun e => h e.symm
  induction m with
  | nil => simp [Memory.write, Memory.read, hne]
  | cons e m ih =>
    obtain ⟨a, w⟩ := e
    unfold Memory.write
    split
    · simp [Memory.read, hne]
    · split
      · rename_i ha
        subst ha
        simp [Memory.read, hne]
      · simp [Memory.read, ih]

/-- The canonical form of a memory with a first entry. -/
theorem wf_cons (a : Nat) (w : Word) (m : Memory) :
    Memory.wf ((a, w) :: m) = true ↔ (∀ e ∈ m.head?, a < e.1) ∧ Memory.wf m = true := by
  cases m with
  | nil => simp [Memory.wf]
  | cons e m => simp [Memory.wf]

/-- The first index of a memory after a write is the written one or the old first one. -/
theorem write_head (m : Memory) (i : Nat) (v : Word) :
    ∀ e ∈ (Memory.write m i v).head?, e.1 = i ∨ e ∈ m.head? := by
  cases m with
  | nil => simp [Memory.write]
  | cons e m =>
    obtain ⟨a, w⟩ := e
    unfold Memory.write
    split
    · simp
    · split <;> simp

/-- A write keeps the canonical form. -/
theorem wf_write (m : Memory) (i : Nat) (v : Word) (h : Memory.wf m = true) :
    Memory.wf (Memory.write m i v) = true := by
  induction m with
  | nil => rfl
  | cons e m ih =>
    obtain ⟨a, w⟩ := e
    have hc := (wf_cons a w m).1 h
    unfold Memory.write
    split
    · rename_i hlt
      exact (wf_cons i v _).2 ⟨by simpa using hlt, h⟩
    · split
      · rename_i he
        subst he
        exact (wf_cons i v m).2 hc
      · refine (wf_cons a w _).2 ⟨fun e he => ?_, ih hc.2⟩
        rcases write_head m i v e he with h1 | h1
        · omega
        · exact hc.1 e h1

/-- Reset memory is in canonical form. -/
theorem wf_reset : Memory.wf Store.reset.buf = true := rfl

/-- Every entry after a write is the written one or an old one. -/
theorem mem_write (m : Memory) (i : Nat) (v : Word) (e : Nat × Word) (h : e ∈ Memory.write m i v) :
    e = (i, v) ∨ e ∈ m := by
  induction m with
  | nil => simpa [Memory.write] using h
  | cons d m ih =>
    obtain ⟨a, w⟩ := d
    unfold Memory.write at h
    split at h
    · simpa using h
    · split at h
      · simp at h
        tauto
      · simp at h
        rcases h with h | h
        · exact .inr (by simp [h])
        · rcases ih h with h | h
          · exact .inl h
          · exact .inr (by simp [h])

/-- The members of a written set after marking a word (R47). -/
@[simp] theorem mem_markWritten (l : List Nat) (i j : Nat) : j ∈ markWritten l i ↔ j = i ∨ j ∈ l := by
  induction l with
  | nil => simp [markWritten]
  | cons a l ih =>
    unfold markWritten
    split
    · simp
    · split
      · rename_i he
        subst he
        simp
      · simp [ih]
        tauto

/-- The canonical form of an index set with a first index. -/
theorem rising_cons (a : Nat) (l : List Nat) :
    risingIndices (a :: l) = true ↔ (∀ b ∈ l.head?, a < b) ∧ risingIndices l = true := by
  cases l with
  | nil => simp [risingIndices]
  | cons b l => simp [risingIndices]

/-- The first index after marking is the marked one or the old first one. -/
theorem markWritten_head (l : List Nat) (i : Nat) :
    ∀ b ∈ (markWritten l i).head?, b = i ∨ b ∈ l.head? := by
  cases l with
  | nil => simp [markWritten]
  | cons a l =>
    unfold markWritten
    split
    · simp
    · split <;> simp

/-- Marking a word keeps the canonical form. -/
theorem rising_markWritten (l : List Nat) (i : Nat) (h : risingIndices l = true) :
    risingIndices (markWritten l i) = true := by
  induction l with
  | nil => rfl
  | cons a l ih =>
    have hc := (rising_cons a l).1 h
    unfold markWritten
    split
    · rename_i hlt
      exact (rising_cons i _).2 ⟨by simpa using hlt, h⟩
    · split
      · exact h
      · refine (rising_cons a _).2 ⟨fun b hb => ?_, ih hc.2⟩
        rcases markWritten_head l i b hb with h1 | h1
        · omega
        · exact hc.1 b h1

end Sys2Proof.Machine
end

