-- ==== Sys2Proof/Laws/State.lean ====
section
/-! SUPPORT. The fields of the state after each update: one lemma per field per update, all by rfl. -/

namespace Sys2Proof.Machine

@[simp] theorem driveResult_verify (s : State) (v : Word) : (driveResult s v).verify = s.verify := rfl
@[simp] theorem driveResult_pingSum (s : State) (v : Word) : (driveResult s v).pingSum = s.pingSum := rfl
@[simp] theorem driveResult_inputOffset (s : State) (v : Word) : (driveResult s v).inputOffset = s.inputOffset := rfl
@[simp] theorem driveResult_maccLatch (s : State) (v : Word) : (driveResult s v).maccLatch = s.maccLatch := rfl
@[simp] theorem driveResult_input (s : State) (v : Word) : (driveResult s v).input = s.input := rfl
@[simp] theorem driveResult_filter (s : State) (v : Word) : (driveResult s v).filter = s.filter := rfl
@[simp] theorem driveResult_credit (s : State) (v : Word) : (driveResult s v).credit = s.credit := rfl
@[simp] theorem driveResult_inputs (s : State) (v : Word) : (driveResult s v).inputs = s.inputs := rfl
@[simp] theorem driveResult_result (s : State) (v : Word) : (driveResult s v).result = some v := rfl
@[simp] theorem driveResult_gate (s : State) (v : Word) : (driveResult s v).gate = s.gate := rfl
@[simp] theorem driveResult_epoch (s : State) (v : Word) : (driveResult s v).epoch = s.epoch := rfl
@[simp] theorem driveResult_steps (s : State) (v : Word) : (driveResult s v).steps = s.steps := rfl

@[simp] theorem completeSet_verify (s : State) : (completeSet s).verify = s.verify := rfl
@[simp] theorem completeSet_pingSum (s : State) : (completeSet s).pingSum = s.pingSum := rfl
@[simp] theorem completeSet_inputOffset (s : State) : (completeSet s).inputOffset = s.inputOffset := rfl
@[simp] theorem completeSet_maccLatch (s : State) : (completeSet s).maccLatch = s.maccLatch := rfl
@[simp] theorem completeSet_input (s : State) : (completeSet s).input = s.input := rfl
@[simp] theorem completeSet_filter (s : State) : (completeSet s).filter = s.filter := rfl
@[simp] theorem completeSet_credit (s : State) : (completeSet s).credit = s.credit := rfl
@[simp] theorem completeSet_inputs (s : State) : (completeSet s).inputs = s.inputs := rfl
@[simp] theorem completeSet_result (s : State) : (completeSet s).result = some 0 := rfl
@[simp] theorem completeSet_gate (s : State) : (completeSet s).gate = s.gate := rfl
@[simp] theorem completeSet_epoch (s : State) : (completeSet s).epoch = s.epoch + 1 := rfl
@[simp] theorem completeSet_steps (s : State) : (completeSet s).steps = s.steps := rfl

@[simp] theorem macTick_verify (start s : State) : (macTick start s).verify = s.verify := rfl
@[simp] theorem macTick_pingSum (start s : State) : (macTick start s).pingSum = s.pingSum := rfl
@[simp] theorem macTick_inputOffset (start s : State) : (macTick start s).inputOffset = s.inputOffset := rfl
@[simp] theorem macTick_maccLatch (start s : State) : (macTick start s).maccLatch = macValue start := rfl
@[simp] theorem macTick_input (start s : State) : (macTick start s).input = s.input := rfl
@[simp] theorem macTick_filter (start s : State) : (macTick start s).filter = s.filter := rfl
@[simp] theorem macTick_credit (start s : State) : (macTick start s).credit = s.credit := rfl
@[simp] theorem macTick_inputs (start s : State) : (macTick start s).inputs = s.inputs := rfl
@[simp] theorem macTick_result (start s : State) : (macTick start s).result = s.result := rfl
@[simp] theorem macTick_gate (start s : State) : (macTick start s).gate = s.gate := rfl
@[simp] theorem macTick_epoch (start s : State) : (macTick start s).epoch = s.epoch := rfl
@[simp] theorem macTick_steps (start s : State) : (macTick start s).steps = s.steps := rfl

@[simp] theorem takeInput_verify (s : State) : (takeInput s).verify = s.verify := rfl
@[simp] theorem takeInput_pingSum (s : State) : (takeInput s).pingSum = s.pingSum := rfl
@[simp] theorem takeInput_inputOffset (s : State) : (takeInput s).inputOffset = s.inputOffset := rfl
@[simp] theorem takeInput_maccLatch (s : State) : (takeInput s).maccLatch = s.maccLatch := rfl
@[simp] theorem takeInput_input (s : State) : (takeInput s).input = s.input := rfl
@[simp] theorem takeInput_filter (s : State) : (takeInput s).filter = s.filter := rfl
@[simp] theorem takeInput_credit (s : State) : (takeInput s).credit = s.credit := rfl
@[simp] theorem takeInput_inputs (s : State) : (takeInput s).inputs = s.inputs.tail := rfl
@[simp] theorem takeInput_result (s : State) : (takeInput s).result = s.result := rfl
@[simp] theorem takeInput_gate (s : State) : (takeInput s).gate = s.gate := rfl
@[simp] theorem takeInput_epoch (s : State) : (takeInput s).epoch = s.epoch := rfl
@[simp] theorem takeInput_steps (s : State) : (takeInput s).steps = s.steps + 1 := rfl

@[simp] theorem idleCommand_verify (s : State) : (idleCommand s).verify = s.verify := rfl
@[simp] theorem idleCommand_pingSum (s : State) : (idleCommand s).pingSum = s.pingSum := rfl
@[simp] theorem idleCommand_inputOffset (s : State) : (idleCommand s).inputOffset = s.inputOffset := rfl
@[simp] theorem idleCommand_maccLatch (s : State) : (idleCommand s).maccLatch = s.maccLatch := rfl
@[simp] theorem idleCommand_input (s : State) : (idleCommand s).input = s.input := rfl
@[simp] theorem idleCommand_filter (s : State) : (idleCommand s).filter = s.filter := rfl
@[simp] theorem idleCommand_credit (s : State) : (idleCommand s).credit = s.credit := rfl
@[simp] theorem idleCommand_inputs (s : State) : (idleCommand s).inputs = s.inputs := rfl
@[simp] theorem idleCommand_result (s : State) : (idleCommand s).result = some (Config.idleResult s.steps) := rfl
@[simp] theorem idleCommand_gate (s : State) : (idleCommand s).gate = s.gate := rfl
@[simp] theorem idleCommand_epoch (s : State) : (idleCommand s).epoch = s.epoch := rfl
@[simp] theorem idleCommand_steps (s : State) : (idleCommand s).steps = s.steps := rfl

@[simp] theorem restrictorStep_verify (x : StepInput) (s : State) : (restrictorStep x s).verify = s.verify := rfl
@[simp] theorem restrictorStep_pingSum (x : StepInput) (s : State) : (restrictorStep x s).pingSum = s.pingSum := rfl
@[simp] theorem restrictorStep_inputOffset (x : StepInput) (s : State) : (restrictorStep x s).inputOffset = s.inputOffset := rfl
@[simp] theorem restrictorStep_maccLatch (x : StepInput) (s : State) : (restrictorStep x s).maccLatch = s.maccLatch := rfl
@[simp] theorem restrictorStep_input (x : StepInput) (s : State) : (restrictorStep x s).input = s.input := rfl
@[simp] theorem restrictorStep_filter (x : StepInput) (s : State) : (restrictorStep x s).filter = s.filter := rfl
@[simp] theorem restrictorStep_credit (x : StepInput) (s : State) : (restrictorStep x s).credit = nextCredit s.credit x := rfl
@[simp] theorem restrictorStep_inputs (x : StepInput) (s : State) : (restrictorStep x s).inputs = s.inputs := rfl
@[simp] theorem restrictorStep_result (x : StepInput) (s : State) : (restrictorStep x s).result = s.result := rfl
@[simp] theorem restrictorStep_gate (x : StepInput) (s : State) : (restrictorStep x s).gate = some (gateOutputs s.credit s.steps x) := rfl
@[simp] theorem restrictorStep_epoch (x : StepInput) (s : State) : (restrictorStep x s).epoch = s.epoch := rfl
@[simp] theorem restrictorStep_steps (x : StepInput) (s : State) : (restrictorStep x s).steps = s.steps := rfl

@[simp] theorem resetProcessor_verify (s : State) : (resetProcessor s).verify = 1 := rfl
@[simp] theorem resetProcessor_pingSum (s : State) : (resetProcessor s).pingSum = 0 := rfl
@[simp] theorem resetProcessor_inputOffset (s : State) : (resetProcessor s).inputOffset = 0 := rfl
@[simp] theorem resetProcessor_maccLatch (s : State) : (resetProcessor s).maccLatch = 0 := rfl
@[simp] theorem resetProcessor_input (s : State) : (resetProcessor s).input = Store.reset := rfl
@[simp] theorem resetProcessor_filter (s : State) : (resetProcessor s).filter = Store.reset := rfl
@[simp] theorem resetProcessor_credit (s : State) : (resetProcessor s).credit = s.credit := rfl
@[simp] theorem resetProcessor_inputs (s : State) : (resetProcessor s).inputs = s.inputs := rfl
@[simp] theorem resetProcessor_result (s : State) : (resetProcessor s).result = none := rfl
@[simp] theorem resetProcessor_gate (s : State) : (resetProcessor s).gate = s.gate := rfl
@[simp] theorem resetProcessor_epoch (s : State) : (resetProcessor s).epoch = s.epoch + 1 := rfl
@[simp] theorem resetProcessor_steps (s : State) : (resetProcessor s).steps = s.steps := rfl

@[simp] theorem resetRestrictor_verify (s : State) : (resetRestrictor s).verify = s.verify := rfl
@[simp] theorem resetRestrictor_pingSum (s : State) : (resetRestrictor s).pingSum = s.pingSum := rfl
@[simp] theorem resetRestrictor_inputOffset (s : State) : (resetRestrictor s).inputOffset = s.inputOffset := rfl
@[simp] theorem resetRestrictor_maccLatch (s : State) : (resetRestrictor s).maccLatch = s.maccLatch := rfl
@[simp] theorem resetRestrictor_input (s : State) : (resetRestrictor s).input = s.input := rfl
@[simp] theorem resetRestrictor_filter (s : State) : (resetRestrictor s).filter = s.filter := rfl
@[simp] theorem resetRestrictor_credit (s : State) : (resetRestrictor s).credit = 0 := rfl
@[simp] theorem resetRestrictor_inputs (s : State) : (resetRestrictor s).inputs = s.inputs := rfl
@[simp] theorem resetRestrictor_result (s : State) : (resetRestrictor s).result = s.result := rfl
@[simp] theorem resetRestrictor_gate (s : State) : (resetRestrictor s).gate = none := rfl
@[simp] theorem resetRestrictor_epoch (s : State) : (resetRestrictor s).epoch = s.epoch := rfl
@[simp] theorem resetRestrictor_steps (s : State) : (resetRestrictor s).steps = s.steps := rfl

@[simp] theorem store_input (s : State) : s.store .input = s.input := rfl
@[simp] theorem setStore_input (s : State) (st : Store) : s.setStore .input st = { s with input := st } := rfl
@[simp] theorem store_filter (s : State) : s.store .filter = s.filter := rfl
@[simp] theorem setStore_filter (s : State) (st : Store) : s.setStore .filter st = { s with filter := st } := rfl

@[simp] theorem setStore_field_verify (s : State) (id : StoreId) (st : Store) : (s.setStore id st).verify = s.verify := by
  cases id <;> rfl
@[simp] theorem setStore_field_pingSum (s : State) (id : StoreId) (st : Store) : (s.setStore id st).pingSum = s.pingSum := by
  cases id <;> rfl
@[simp] theorem setStore_field_inputOffset (s : State) (id : StoreId) (st : Store) : (s.setStore id st).inputOffset = s.inputOffset := by
  cases id <;> rfl
@[simp] theorem setStore_field_maccLatch (s : State) (id : StoreId) (st : Store) : (s.setStore id st).maccLatch = s.maccLatch := by
  cases id <;> rfl
@[simp] theorem setStore_field_credit (s : State) (id : StoreId) (st : Store) : (s.setStore id st).credit = s.credit := by
  cases id <;> rfl
@[simp] theorem setStore_field_inputs (s : State) (id : StoreId) (st : Store) : (s.setStore id st).inputs = s.inputs := by
  cases id <;> rfl
@[simp] theorem setStore_field_result (s : State) (id : StoreId) (st : Store) : (s.setStore id st).result = s.result := by
  cases id <;> rfl
@[simp] theorem setStore_field_gate (s : State) (id : StoreId) (st : Store) : (s.setStore id st).gate = s.gate := by
  cases id <;> rfl
@[simp] theorem setStore_field_epoch (s : State) (id : StoreId) (st : Store) : (s.setStore id st).epoch = s.epoch := by
  cases id <;> rfl
@[simp] theorem setStore_field_steps (s : State) (id : StoreId) (st : Store) : (s.setStore id st).steps = s.steps := by
  cases id <;> rfl

@[simp] theorem store_setStore_same (s : State) (id : StoreId) (st : Store) : (s.setStore id st).store id = st := by
  cases id <;> rfl

theorem store_setStore_other (s : State) (id other : StoreId) (st : Store) (h : other ≠ id) :
    (s.setStore id st).store other = s.store other := by
  cases id <;> cases other <;> first | rfl | exact absurd rfl h

@[simp] theorem store_driveResult (s : State) (v : Word) (id : StoreId) : (driveResult s v).store id = s.store id := by
  cases id <;> rfl

@[simp] theorem store_completeSet (s : State) (id : StoreId) : (completeSet s).store id = s.store id := by
  cases id <;> rfl

@[simp] theorem configured_n (st : Store) (n : Nat) : (st.configured n).n = n := rfl
@[simp] theorem configured_writePos (st : Store) (n : Nat) : (st.configured n).writePos = 0 := rfl
@[simp] theorem configured_windowBase (st : Store) (n : Nat) : (st.configured n).windowBase = 0 := rfl
@[simp] theorem configured_buf (st : Store) (n : Nat) : (st.configured n).buf = st.buf := rfl
@[simp] theorem configured_written (st : Store) (n : Nat) : (st.configured n).written = [] := rfl

@[simp] theorem memWrite_n (st : Store) (i : Nat) (v : Word) : (memWrite st i v).n = st.n := rfl
@[simp] theorem memWrite_writePos (st : Store) (i : Nat) (v : Word) : (memWrite st i v).writePos = st.writePos := rfl
@[simp] theorem memWrite_windowBase (st : Store) (i : Nat) (v : Word) :
    (memWrite st i v).windowBase = st.windowBase := rfl
@[simp] theorem memWrite_buf (st : Store) (i : Nat) (v : Word) :
    (memWrite st i v).buf = Memory.write st.buf i v := rfl
@[simp] theorem memWrite_written (st : Store) (i : Nat) (v : Word) :
    (memWrite st i v).written = markWritten st.written i := rfl

end Sys2Proof.Machine
end

