-- ==== Sys2Proof/Laws/Ops.lean ====
section
/-! SUPPORT. One lemma per shared operation that says everything it can do, to be cited in place of its unfolding. -/

namespace Sys2Proof.Machine

/-- A sum of words is the sum of bit vectors (R14). -/
theorem addWords_eq (a b : Word) : addWords a b = a + b := by
  apply BitVec.eq_of_toNat_eq
  simp only [addWords, wrap32, uint, ← Int.natCast_add, BitVec.ofInt_natCast]
  simp [BitVec.toNat_add]

/-- Everything SET(*_NUM_WORDS) can do (R113, R114). -/
theorem configureStore_cases (id : StoreId) (v : Word) (s : State) :
    (Config.storeCapacity < v.toNat ∧ configureStore id v s = .refused .capacityExceeded) ∨
    (v.toNat ≤ Config.storeCapacity ∧
      configureStore id v s = .next (completeSet (s.setStore id ((s.store id).configured v.toNat)))) := by
  unfold configureStore uint
  split
  · exact .inl ⟨‹_›, rfl⟩
  · exact .inr ⟨by omega, rfl⟩

/-- Everything an append does (R115, R116). -/
theorem appendWord_eq (id : StoreId) (v : Word) (s : State) :
    appendWord id v s = .next (completeSet (s.setStore id ((s.store id).appended v))) := rfl

/-- Everything a readback does (R117 to R124). -/
theorem readWindow_eq (id : StoreId) (j : Nat) (s : State) :
    readWindow id j s = .next (driveResult s (winWord s.epoch id (s.store id) j)) := rfl

/-- An append to an empty store is a no-op (R115). -/
theorem appended_empty (st : Store) (v : Word) (h : st.n = 0) : st.appended v = st := by
  simp [Store.appended, h]

/-- An append to a store with words (R115). -/
theorem appended_nonempty (st : Store) (v : Word) (h : 0 < st.n) :
    st.appended v =
      { st with
        buf := Memory.write st.buf st.writePos v
        written := markWritten st.written st.writePos
        writePos := (st.writePos + 1) % st.n } := by
  simp [Store.appended, h, memWrite]

/-- An advance of an empty store is a no-op (R125). -/
theorem advanced_empty (st : Store) (h : st.n = 0) : st.advanced = st := by
  simp [Store.advanced, h]

/-- An advance of a store with words (R125). -/
theorem advanced_nonempty (st : Store) (h : 0 < st.n) :
    st.advanced = { st with windowBase := (st.windowBase + 4) % st.n } := by
  simp [Store.advanced, h, windowWords]

/-- An empty store reads 0 (R48). -/
theorem winWord_empty (epoch : Nat) (id : StoreId) (st : Store) (j : Nat) (h : st.n = 0) :
    winWord epoch id st j = 0 := by
  simp [winWord, h]

/-- A word that was appended since the last configuration reads back, in an aligned store (R46, R48). -/
theorem winWord_appended (epoch : Nat) (id : StoreId) (st : Store) (j : Nat) (w : Word) (hn : st.n ≠ 0)
    (h4 : st.n % 4 = 0) (hw : st.appended? ((st.windowBase + j) % st.n) = some w) :
    winWord epoch id st j = w := by
  simp [winWord, windowWords, hn, h4, memRead, windowIndex, hw]

/-- The appended word at an index, where it was written and is listed (R46). -/
theorem appended_word_eq (st : Store) (i : Nat) (hi : i ∈ st.written) :
    st.appended? i = Memory.read st.buf i := by
  simp [Store.appended?, hi]

/-- A known window word does not depend on the free values (R48). -/
theorem winWord_known (epoch epoch' : Nat) (id : StoreId) (st : Store) (j : Nat) (h : winWordKnown st j = true) :
    winWord epoch id st j = winWord epoch' id st j := by
  unfold winWordKnown at h
  unfold winWord memRead
  split
  · rfl
  · rename_i hn
    simp only [Bool.or_eq_true, beq_iff_eq, hn, false_or, Bool.and_eq_true] at h
    simp only [h.1, ne_eq, not_true_eq_false, if_false]
    obtain ⟨w, hw⟩ := Option.isSome_iff_exists.1 h.2
    simp [hw]

/-- The MAC value with an empty FilterStore (R134, R135). -/
theorem macValue_filter_empty (s : State) (h : s.filter.n = 0) : macValue s = 0 := by
  simp [macValue, h]

/-- The MAC value of known windows (R131). -/
theorem macValue_known (s : State) (hf : s.filter.n ≠ 0) (hi : windowKnown s.input = true)
    (hk : windowKnown s.filter = true) : macValue s = wrap32 (macSum s) := by
  simp [macValue, hf, hi, hk]

/-- A GET answers a next state in which its result alone is new (R52). -/
theorem next_driveResult (s t : State) (v : Word)
    (h : (Host.Outcome.next (driveResult s v) : Host.Outcome State Fault Refusal) = .next t) :
    t = { s with result := some v } := by
  cases h
  rfl

end Sys2Proof.Machine
end

