-- ==== Sys2Proof/Laws/PerInstr.lean ====
section
/-! SUPPORT. What every command has as syntax, one lemma per constructor: its selector is `regId * 8 + op` (R64), and the
command it encodes to is not reserved (R68). -/

namespace Sys2Proof.Laws.SelectorEncoding

/-- A selector as a number (R64). -/
theorem selector_toNat (regId : RegId) (op : OpCode) :
    (regId ++ op : BitVec (7 + 3)).toNat = regId.toNat * 8 + op.toNat := by
  have h := op.isLt
  rw [BitVec.toNat_append, ← Nat.shiftLeft_add_eq_or_of_lt h, Nat.shiftLeft_eq]

/-- `sel[2:0]` of a selector (R64). -/
theorem selector_op (regId : RegId) (op : OpCode) :
    BitVec.extractLsb' 0 3 (regId ++ op : BitVec (7 + 3)) = op := by
  apply BitVec.eq_of_toNat_eq
  have h := op.isLt
  rw [BitVec.extractLsb'_toNat, selector_toNat, Nat.shiftRight_zero]
  omega

/-- `sel[9:3]` of a selector (R64). -/
theorem selector_regId (regId : RegId) (op : OpCode) :
    BitVec.extractLsb' 3 7 (regId ++ op : BitVec (7 + 3)) = regId := by
  apply BitVec.eq_of_toNat_eq
  have h := op.isLt
  have h' := regId.isLt
  rw [BitVec.extractLsb'_toNat, selector_toNat, Nat.shiftRight_eq_div_pow]
  omega

/-- The operation of an encoded command (R64, R65). -/
theorem encode_op (i : Instr) : (encode i).op = encodeOp i := selector_op _ _

/-- The register id of an encoded command (R64, R66). -/
theorem encode_regId (i : Instr) : (encode i).regId = encodeRegId i := selector_regId _ _

/-- The selector of the encoded command is `regId * 8 + op` (R64), and the command is not reserved (R68). -/
def Statement (i : Instr) : Prop :=
  (encode i).sel.toNat = (encodeRegId i).toNat * 8 + (encodeOp i).toNat ∧ (encode i).wellFormed = true

/-- The statement follows from the two fields of the selector. -/
theorem statement_of_fields (i : Instr) (regId : RegId) (op : OpCode) (hr : encodeRegId i = regId)
    (ho : encodeOp i = op) (h : Command.wellFormed { sel := regId ++ op, in0 := 0, in1 := 0 } = true) :
    Statement i := by
  subst hr ho
  exact ⟨selector_toNat _ _, h⟩

theorem getVerify : Statement .getVerify := statement_of_fields .getVerify 0 0 rfl rfl (by decide)

theorem getMaccOut : Statement .getMaccOut := statement_of_fields .getMaccOut 6 0 rfl rfl (by decide)

theorem getInputLane0 : Statement .getInputLane0 := statement_of_fields .getInputLane0 7 0 rfl rfl (by decide)

theorem getInputLane1 : Statement .getInputLane1 := statement_of_fields .getInputLane1 8 0 rfl rfl (by decide)

theorem getInputLane2 : Statement .getInputLane2 := statement_of_fields .getInputLane2 9 0 rfl rfl (by decide)

theorem getInputLane3 : Statement .getInputLane3 := statement_of_fields .getInputLane3 10 0 rfl rfl (by decide)

theorem getFilterLane0 : Statement .getFilterLane0 := statement_of_fields .getFilterLane0 11 0 rfl rfl (by decide)

theorem getFilterLane1 : Statement .getFilterLane1 := statement_of_fields .getFilterLane1 12 0 rfl rfl (by decide)

theorem getFilterLane2 : Statement .getFilterLane2 := statement_of_fields .getFilterLane2 13 0 rfl rfl (by decide)

theorem getFilterLane3 : Statement .getFilterLane3 := statement_of_fields .getFilterLane3 14 0 rfl rfl (by decide)

theorem setVerify (v : Word) : Statement (.setVerify v) := statement_of_fields (.setVerify v) 0 1 rfl rfl (by decide)

theorem setInputNumWords (v : Word) : Statement (.setInputNumWords v) := statement_of_fields (.setInputNumWords v) 1 1 rfl rfl (by decide)

theorem setInputWord (v : Word) : Statement (.setInputWord v) := statement_of_fields (.setInputWord v) 2 1 rfl rfl (by decide)

theorem setFilterNumWords (v : Word) : Statement (.setFilterNumWords v) := statement_of_fields (.setFilterNumWords v) 3 1 rfl rfl (by decide)

theorem setFilterWord (v : Word) : Statement (.setFilterWord v) := statement_of_fields (.setFilterWord v) 4 1 rfl rfl (by decide)

theorem setInputOffset (v : Word) : Statement (.setInputOffset v) := statement_of_fields (.setInputOffset v) 5 1 rfl rfl (by decide)

theorem setAdvanceWindow : Statement .setAdvanceWindow := statement_of_fields .setAdvanceWindow 15 1 rfl rfl (by decide)

theorem ping (regId : RegId) (a b : Word) : Statement (.ping regId a b) := by
  refine ⟨selector_toNat _ _, ?_⟩
  have hop : (encode (.ping regId a b)).op = 2 := encode_op _
  simp [Command.wellFormed, Command.opOk, Command.idOk, Command.directionOk, hop]

end Sys2Proof.Laws.SelectorEncoding
end

