-- ==== Sys2Proof/Laws/Step.lean ====
section
/-! SUPPORT. What a step can do, said once (R98, R103, R107, R153), and what the FlowRestrictor's step (R97) and
the producer's duty (R95) can do. -/

namespace Sys2Proof.Machine

/-- Everything a step can do. -/
theorem step_cases (s : State) :
    (∃ scope, (nextInput s).reset = some scope ∧ step s = .next (resetEvent scope (takeInput s))) ∨
    ((nextInput s).reset = none ∧ (nextInput s).valid = false ∧
      step s = .next (idleCommand (restrictorStep (nextInput s) (takeInput s)))) ∨
    (∃ i, (nextInput s).reset = none ∧ (nextInput s).valid = true ∧ decode (nextInput s).cmd = .ok i ∧
      step s = exec i (restrictorStep (nextInput s) (takeInput s))) ∨
    (∃ r, (nextInput s).reset = none ∧ (nextInput s).valid = true ∧ decode (nextInput s).cmd = .error r ∧
      step s = .refused (refusalOf r)) := by
  unfold step
  split
  · exact .inl ⟨_, ‹_›, rfl⟩
  · split
    · split
      · exact .inr (.inr (.inl ⟨_, ‹_›, ‹_›, ‹_›, rfl⟩))
      · exact .inr (.inr (.inr ⟨_, ‹_›, ‹_›, ‹_›, rfl⟩))
    · rename_i h
      exact .inr (.inl ⟨‹_›, by simpa using h, rfl⟩)

/-- Everything the credit can do in a step, by case (R86 to R88). -/
theorem nextCredit_cases (credit : Nat) (x : StepInput) :
    (credit = 0 ∧ x.releaseValid = true ∧ nextCredit credit x = x.releaseCount.toNat) ∨
    (0 < credit ∧ x.inAvailable = true ∧ x.outAccepted = true ∧ forwards credit x = true ∧
      nextCredit credit x = credit - 1) ∨
    (releaseAccepted credit x = false ∧ forwards credit x = false ∧ nextCredit credit x = credit) := by
  unfold nextCredit
  split
  · rename_i h
    simp only [releaseAccepted, releaseReady, Bool.and_eq_true, beq_iff_eq] at h
    exact .inl ⟨h.2, h.1, rfl⟩
  · rename_i hr
    split
    · rename_i h
      have hf := h
      simp only [forwards, Bool.and_eq_true, decide_eq_true_eq] at h
      exact .inr (.inl ⟨h.1.1, h.1.2, h.2, hf, rfl⟩)
    · rename_i h
      exact .inr (.inr ⟨by simpa using hr, by simpa using h, rfl⟩)

/-- An entry that is a step moves the credit as R97 says, and keeps the offer it does not transfer. -/
theorem creditAfter_step (credit : Nat) (x : StepInput) (h : x.reset = none) :
    creditAfter credit x = nextCredit credit x := by simp [creditAfter, h]

theorem heldOffer_step (credit : Nat) (held : Option (BitVec Config.payloadWidth)) (x : StepInput) (h : x.reset = none) :
    heldOffer credit held x = if x.inAvailable && !forwards credit x then some x.inPayload else none := by
  simp [heldOffer, h]

/-- What the producer's duty says of an entry that is a step: an offer carries the payload held (R95). -/
theorem offerKept_step (p : BitVec Config.payloadWidth) (x : StepInput) (h : x.reset = none) :
    offerKept (some p) x = true ↔ (x.inAvailable = true → x.inPayload = p) := by
  cases ha : x.inAvailable <;> simp [offerKept, h, ha]

/-- A reset event keeps the offer held and demands nothing of the producer (R153). -/
theorem heldOffer_reset (credit : Nat) (held : Option (BitVec Config.payloadWidth)) (x : StepInput) (scope : ResetScope)
    (h : x.reset = some scope) : heldOffer credit held x = held ∧ offerKept held x = true := by
  simp [heldOffer, offerKept, h]

/-- Every count below 8 fits in COUNT_WIDTH bits, which are at least 3 (R13). -/
theorem small_count (n : Nat) (h : n < 8) : n < 2 ^ Config.countWidth := by
  have h1 : 2 ^ 3 ≤ 2 ^ Config.countWidth := Nat.pow_le_pow_right (by decide) (Nat.le_add_left 3 _)
  omega

/-- Commands in sequence that answer a next state: so do the first ones, and the rest from there (R56). -/
theorem runCommands_append (xs ys : List Instr) (s u : State) :
    runCommands (xs ++ ys) s = .next u ↔ ∃ t, runCommands xs s = .next t ∧ runCommands ys t = .next u := by
  induction xs generalizing s with
  | nil => simp [runCommands]
  | cons i xs ih =>
    simp only [List.cons_append, runCommands]
    cases exec i s with
    | next t => exact ih t
    | fault f => simp
    | refused r => simp

end Sys2Proof.Machine
end

