-- ==== Sys2Proof/Machine/Assembler.lean ====
section
/-! DEFINITION. The assembler syntax and its pseudo-instructions (R75, R76; log entries 20 and 23): from a line of text to
what the host presents in one step. -/

namespace Sys2Proof.Machine

/-- What one line of a program says. -/
inductive AsmLine where
  /-- nothing, or a comment alone -/
  | blank
  /-- IDLE: a step with `cmd.valid` = 0 -/
  | idle
  /-- a command -/
  | command (i : Instr)
  deriving DecidableEq, Repr

/-- The register names and their ids (R66). -/
def asmNames : List (String × Nat) :=
  [("VERIFY", 0), ("INPUT_NUM_WORDS", 1), ("INPUT_WORD", 2), ("FILTER_NUM_WORDS", 3)]
  ++ [("FILTER_WORD", 4), ("INPUT_OFFSET", 5), ("MACC_OUT", 6), ("INPUT_LANE_0", 7)]
  ++ [("INPUT_LANE_1", 8), ("INPUT_LANE_2", 9), ("INPUT_LANE_3", 10), ("FILTER_LANE_0", 11)]
  ++ [("FILTER_LANE_1", 12), ("FILTER_LANE_2", 13), ("FILTER_LANE_3", 14), ("ADVANCE_WINDOW", 15)]

/-- The id of a register name (R66). -/
def asmRegId (name : List Char) : Option Nat :=
  (asmNames.find? fun e => e.1.toList == name).map Prod.snd

/-- A line's text without spaces and tabs at its ends. -/
def asmTrim (cs : List Char) : List Char :=
  let blank := fun c : Char => c == ' ' || c == '\t'
  ((cs.dropWhile blank).reverse.dropWhile blank).reverse

/-- The value of a digit, hexadecimal ones included. -/
def asmDigit (c : Char) : Option Nat :=
  if '0' ≤ c ∧ c ≤ '9' then some (c.toNat - '0'.toNat)
  else if 'a' ≤ c ∧ c ≤ 'f' then some (c.toNat - 'a'.toNat + 10)
  else if 'A' ≤ c ∧ c ≤ 'F' then some (c.toNat - 'A'.toNat + 10)
  else none

/-- Read digits of a base after a value already read. -/
def asmDigits (base : Nat) (cs : List Char) (acc : Nat) : Option Nat :=
  match cs with
  | [] => some acc
  | c :: rest =>
    match asmDigit c with
    | some d => if d < base then asmDigits base rest (acc * base + d) else none
    | none => none

/-- An unsigned number of at least one digit. -/
def asmUnsigned (base : Nat) (cs : List Char) : Option Nat :=
  if cs.isEmpty then none else asmDigits base cs 0

/-- A 32-bit integer: decimal, `0x` hex, or a negative decimal, which denotes its two's-complement pattern (R75). -/
def asmNumber (cs : List Char) : Option Word :=
  match cs with
  | '-' :: ds =>
    (asmUnsigned 10 ds).bind fun n => if n ≤ 2 ^ 31 then some (wrap32 (-(n : Int))) else none
  | '0' :: 'x' :: ds =>
    (asmUnsigned 16 ds).bind fun n => if n < 2 ^ 32 then some (BitVec.ofNat 32 n) else none
  | ds =>
    (asmUnsigned 10 ds).bind fun n => if n < 2 ^ 32 then some (BitVec.ofNat 32 n) else none

/-- The arguments between the commas, trimmed. -/
def asmSplit (cs : List Char) : List (List Char) :=
  match cs with
  | [] => [[]]
  | c :: rest =>
    if c = ',' then [] :: asmSplit rest
    else
      match asmSplit rest with
      | [] => [[c]]
      | a :: more => (c :: a) :: more

/-- The arguments of `NAME(a, b)`: none where there are no parentheses at all. -/
def asmArguments (cs : List Char) : Option (List (List Char)) :=
  match cs with
  | [] => some []
  | '(' :: rest =>
    if rest.getLast? = some ')' then some ((asmSplit rest.dropLast).map asmTrim) else none
  | _ => none

/-- A decoded command as a line; a reserved command has no assembler form. -/
def asmDecoded (r : Except Reserved Instr) : Option AsmLine :=
  match r with
  | .ok i => some (.command i)
  | .error _ => none

/-- The command `NAME(arguments)` (R75, R76). -/
def asmCommand (name : List Char) (args : List (List Char)) : Option AsmLine :=
  match args with
  | [] =>
    if name = "FIRE".toList then some (.command pseudoFireBare)
    else if name = "ADVANCE".toList then some (.command pseudoAdvance)
    else if name = "IDLE".toList then some .idle
    else none
  | [reg] =>
    if name = "GET".toList then (asmRegId reg).bind fun id => asmDecoded (decodeGet id) else none
  | [a, b] =>
    if name = "SET".toList then
      (asmRegId a).bind fun id => (asmNumber b).bind fun v => asmDecoded (decodeSet id v)
    else if name = "PING".toList ∨ name = "FIRE".toList then
      (asmNumber a).bind fun x => (asmNumber b).bind fun y => some (.command (pseudoFire x y))
    else none
  | _ => none

/-- One line of a program; none where it is not in the syntax of R75 and R76. A `;` begins a comment. -/
def assembleLine (cs : List Char) : Option AsmLine :=
  let body := asmTrim (cs.takeWhile fun c => c != ';')
  if body.isEmpty then some .blank
  else
    (asmArguments (body.dropWhile fun c => c != '(')).bind fun args =>
      asmCommand (asmTrim (body.takeWhile fun c => c != '(')) args

/-- What the host presents for a line: one step for a command or IDLE, none for a blank line (R21, R76). A line says nothing
of the FlowRestrictor's inputs, which R40 leaves to the environment: DESIGN CHOICE, they are those of `quietInput`, with no
offer, no ready consumer, no release request and no reset event (log entry 23). -/
def asmInputs (line : AsmLine) : List StepInput :=
  match line with
  | .blank => []
  | .idle => [quietInput]
  | .command i => [{ quietInput with valid := true, cmd := encode i }]

/-- A program of lines, as the list of inputs that presents it, one command per step (R21, R75), beside a quiet
FlowRestrictor (log entry 23). -/
def assemble (program : List (List Char)) : Option (List StepInput) :=
  match program with
  | [] => some []
  | line :: rest =>
    (assembleLine line).bind fun l => (assemble rest).map fun xs => asmInputs l ++ xs

end Sys2Proof.Machine
end

