-- ==== Sys2Proof/Tests/Slice0.lean ====
section
/-! SUPPORT. Tests of the model on the spec's own vectors (95_test_vectors.md and the examples of the rules), and a witness
for the hypotheses of every statement that has some. -/

namespace Sys2Proof.Tests

open Sys2Proof Sys2Proof.Machine

/-! ## Helpers -/

/-- The next state, if the outcome is one. -/
def nextOf (o : Host.Outcome State Fault Refusal) : Option State :=
  match o with
  | .next t => some t
  | .fault _ => none
  | .refused _ => none

/-- The refusal, if the outcome is one. -/
def refusalIn (o : Host.Outcome State Fault Refusal) : Option Refusal :=
  match o with
  | .next _ => none
  | .fault _ => none
  | .refused r => some r

/-- The result a command returns in its step. -/
def resultOf (o : Host.Outcome State Fault Refusal) : Option Word := (nextOf o).bind fun t => t.result

/-- A store whose words have all been appended, its window at 0. -/
def fullStore (ws : List Word) : Store where
  n := ws.length
  writePos := 0
  windowBase := 0
  buf := (List.range ws.length).zip ws
  written := List.range ws.length

/-- The reset state with both stores full and an offset. -/
def loaded (ws fs : List Word) (offset : Word) : State :=
  { State.reset with input := fullStore ws, filter := fullStore fs, inputOffset := offset }

/-- The command of a selector, presented to the reset state. -/
def presented (sel : Selector) (in0 in1 : Word) : State :=
  { State.reset with inputs := [{ quietInput with valid := true, cmd := { sel := sel, in0 := in0, in1 := in1 } }] }

/-- A reset event, presented to a state with VERIFY = 5 and credit 3. -/
def presentedReset (scope : ResetScope) : State :=
  { State.reset with verify := 5, credit := 3, inputs := [{ quietInput with reset := some scope }] }

/-- A release request of a small count. -/
def release (n : Nat) (h : n < 8) : StepInput :=
  { quietInput with releaseValid := true, releaseCount := BitVec.ofNatLT n (small_count n h) }

/-- An offer, with a consumer that is ready or not. -/
def offer (ready : Bool) : StepInput := { quietInput with inAvailable := true, outAccepted := ready }

/-- The four words whose lanes are 0 to 15 (MC-1). -/
def lanes0to15 : List Word := [0x03020100, 0x07060504, 0x0B0A0908, 0x0F0E0D0C]

/-! ## Decoding: words written out from R77 -/

theorem test_decode_get : decode { sel := 0b0000110000, in0 := 7, in1 := 9 } = .ok .getMaccOut := by decide
theorem test_decode_input_lane : decode { sel := 0b0001000000, in0 := 7, in1 := 9 } = .ok .getInputLane1 := by decide
theorem test_decode_filter_lane : decode { sel := 0b0001110000, in0 := 7, in1 := 9 } = .ok .getFilterLane3 := by decide
theorem test_decode_set : decode { sel := 0b0000011001, in0 := 7, in1 := 9 } = .ok (.setFilterNumWords 7) := by decide
theorem test_decode_append : decode { sel := 0b0000010001, in0 := 7, in1 := 9 } = .ok (.setInputWord 7) := by decide
theorem test_decode_advance : decode { sel := 0b0001111001, in0 := 7, in1 := 9 } = .ok .setAdvanceWindow := by decide

/-- DS-8 -/
theorem test_decode_ping : decode { sel := 0x3FA, in0 := 7, in1 := 9 } = .ok (.ping 127 7 9) := by decide

/-- The selectors of R77, row by row. -/
theorem test_encode_selectors_get :
    ([.getVerify, .getMaccOut, .getInputLane0, .getInputLane1, .getInputLane2, .getInputLane3].map fun i => (encode i).sel)
      = [0x000, 0x030, 0x038, 0x040, 0x048, 0x050] := by decide

theorem test_encode_selectors_filter :
    ([.getFilterLane0, .getFilterLane1, .getFilterLane2, .getFilterLane3].map fun i => (encode i).sel)
      = [0x058, 0x060, 0x068, 0x070] := by decide

theorem test_encode_selectors_set :
    ([.setVerify 1, .setInputNumWords 1, .setInputWord 1, .setFilterNumWords 1, .setFilterWord 1, .setInputOffset 1,
      .setAdvanceWindow, .ping 0 1 2].map fun i => (encode i).sel)
      = [0x001, 0x009, 0x011, 0x019, 0x021, 0x029, 0x079, 0x002] := by decide

/-- The table's numbering: PING with register id 15 and zero operands (PG-5's selector). -/
theorem test_table_word : decodeTableWord 16 0x07A = some (.ping 15 0 0) := by decide

/-! ## Ill-formed commands, one for each check (DS-1 to DS-9) -/

theorem test_illformed_op : (Command.mk 0x003 0 0).opOk = false ∧ (Command.mk 0x003 0 0).wellFormed = false := by decide
theorem test_illformed_id : (Command.mk 0x080 0 0).idOk = false ∧ (Command.mk 0x080 0 0).wellFormed = false := by decide
theorem test_illformed_get :
    (Command.mk 0x008 0 0).directionOk = false ∧ (Command.mk 0x008 0 0).wellFormed = false := by decide
theorem test_illformed_set :
    (Command.mk 0x031 0 0).directionOk = false ∧ (Command.mk 0x031 0 0).wellFormed = false := by decide

/-- DS-1, DS-2, DS-7 -/
theorem test_refuse_reserved_op :
    refusalIn (step (presented 0x003 0 0)) = some .reservedOp ∧ refusalIn (step (presented 0x007 0 0)) = some .reservedOp ∧
      refusalIn (step (presented 0x083 0 0)) = some .reservedOp := by decide

/-- DS-3, DS-4, DS-9 -/
theorem test_refuse_wrong_direction :
    refusalIn (step (presented 0x008 0 0)) = some .wrongDirection ∧
      refusalIn (step (presented 0x031 0 0)) = some .wrongDirection ∧
      refusalIn (step (presented 0x078 0 0)) = some .wrongDirection := by decide

/-- DS-5, DS-6 -/
theorem test_refuse_unmapped_id :
    refusalIn (step (presented 0x080 0 0)) = some .unmappedId ∧
      refusalIn (step (presented 0x3F9 0 0)) = some .unmappedId := by decide

/-! ## The step -/

theorem test_step_runs_fetch_word : resultOf (step (State.reset.withFetchWord 16 0x000)) = some 1 := by decide

/-- DS-10: an idle step changes no register. -/
theorem test_idle_step : (nextOf (step State.reset)).map (fun t => (t.verify, t.maccLatch, t.credit)) = some (1, 0, 0) := by
  decide

theorem test_core_reset :
    (nextOf (step (presentedReset .core))).map (fun t => (t.verify, t.credit)) = some (1, 0) := by decide

theorem test_block_resets :
    (nextOf (step (presentedReset .processor))).map (fun t => (t.verify, t.credit)) = some (1, 3) ∧
      (nextOf (step (presentedReset .restrictor))).map (fun t => (t.verify, t.credit)) = some (5, 0) := by decide

/-! ## VERIFY (VF-1, VF-3, VF-5) and PING (PG-1, PG-3, PG-5) -/

theorem test_get_verify : resultOf (exec .getVerify State.reset) = some 1 := by decide

theorem test_set_verify_wraps :
    (nextOf (exec (.setVerify 0xFFFFFFFF) State.reset)).map (fun t => (t.verify, t.result)) = some (0, some 0) := by decide

theorem test_set_verify :
    (nextOf (exec (.setVerify 0xDEADBEEF) { State.reset with verify := 5 })).map (fun t => t.verify)
      = some 0xDEADBEF4 := by decide

theorem test_ping :
    (nextOf (exec (.ping 0 1 2) State.reset)).map (fun t => (t.result, t.pingSum)) = some (some 0, 3) := by decide

/-- PG-4, PG-5: the sum wraps, the previous sum is returned, and register id 15 advances no window. -/
theorem test_ping_wraps_and_ignores_id :
    (nextOf (exec (.ping 15 0x80000000 0x80000000)
      { loaded [1, 2, 3, 4, 5, 6, 7, 8] [] 0 with pingSum := 9 })).map
        (fun t => (t.result, t.pingSum, t.input.windowBase)) = some (some 9, 0, 0) := by decide

/-! ## Stores -/

/-- R113's example: the count is declared and both pointers are reset. -/
theorem test_configure_input :
    (nextOf (exec (.setInputNumWords 20) (loaded [1, 2, 3, 4] [] 0))).map
      (fun t => (t.input.n, t.input.writePos, t.input.windowBase, t.input.written)) = some (20, 0, 0, []) := by decide

theorem test_configure_filter :
    (nextOf (exec (.setFilterNumWords 40) (loaded [1, 2, 3, 4] [] 0))).map
      (fun t => (t.filter.n, t.input.n)) = some (40, 4) := by decide

/-- ST-12: above a capacity of 40, SET(FILTER_NUM_WORDS, 41) is refused. -/
theorem test_configure_above_capacity (h : Config.storeCapacity = 40) :
    exec (.setFilterNumWords 41) State.reset = .refused .capacityExceeded := by
  simp [exec, execSetFilterNumWords, configureStore, h, uint]

/-- ST-2: an append to an empty store stores nothing. -/
theorem test_append_empty :
    (nextOf (exec (.setInputWord 5) State.reset)).map (fun t => (t.input, t.result)) = some (Store.reset, some 0) := by decide

/-- ST-3's fifth append: word 0 is overwritten and writePos is 1. -/
theorem test_append_wraps :
    (nextOf (exec (.setInputWord 0x55) (loaded [0x11, 0x22, 0x33, 0x44] [] 0))).map
      (fun t => (t.input.buf, t.input.writePos)) = some ([(0, 0x55), (1, 0x22), (2, 0x33), (3, 0x44)], 1) := by decide

/-- R116's example: the last of four appends brings writePos back to 0. -/
theorem test_append_filter :
    (nextOf (exec (.setFilterWord 9) { State.reset with
      filter := { n := 4, writePos := 3, windowBase := 0, buf := [(0, 6), (1, 7), (2, 8)], written := [0, 1, 2] } })).map
        (fun t => (t.filter.writePos, t.filter.written)) = some (0, [0, 1, 2, 3]) := by decide

/-- ST-1: an empty store reads 0. -/
theorem test_readback_empty :
    resultOf (exec .getInputLane0 State.reset) = some 0 ∧ resultOf (exec .getFilterLane3 State.reset) = some 0 := by decide

/-- R117 to R120: the four readbacks return the four words of the window. -/
theorem test_input_readbacks :
    ([.getInputLane0, .getInputLane1, .getInputLane2, .getInputLane3].map fun i =>
      resultOf (exec i (loaded [100, 101, 102, 103, 104, 105, 106, 107] [] 0)))
      = [some 100, some 101, some 102, some 103] := by decide

/-- ST-11, ST-5: after an advance the window is at word 4, or still at 0 where n = 4. -/
theorem test_filter_readbacks :
    ([.getFilterLane0, .getFilterLane1, .getFilterLane2, .getFilterLane3].map fun i =>
      resultOf (exec i { State.reset with filter := { fullStore [10, 11, 12, 13, 14, 15, 16, 17] with windowBase := 4 } }))
      = [some 14, some 15, some 16, some 17] := by decide

/-- ST-8: n = 8 moves to 4, n = 4 stays at 0. -/
theorem test_advance :
    (nextOf (exec .setAdvanceWindow (loaded [1, 2, 3, 4, 5, 6, 7, 8] [1, 2, 3, 4] 0))).map
      (fun t => (t.input.windowBase, t.filter.windowBase)) = some (4, 0) := by decide

/-- R125's example: an empty FilterStore is not moved; InputStore moves from 4 to 8. -/
theorem test_advance_empty :
    (nextOf (exec .setAdvanceWindow
      { State.reset with input := { fullStore (List.replicate 20 7) with windowBase := 4 } })).map
        (fun t => (t.input.windowBase, t.filter)) = some (8, Store.reset) := by decide

/-! ## MAC -/

theorem test_set_offset :
    (nextOf (exec (.setInputOffset 0xFFFFFF80) State.reset)).map (fun t => (t.inputOffset, t.maccLatch))
      = some (0xFFFFFF80, 0) := by decide

/-- MC-10: the latch is returned as it stands. -/
theorem test_get_macc_out : resultOf (exec .getMaccOut { State.reset with maccLatch := 2680 }) = some 2680 := by decide

/-- MC-1 -/
theorem test_mac_formula : macValue (loaded lanes0to15 lanes0to15 12) = 0x00000A78 := by decide

/-- MC-2 -/
theorem test_mac_lowest :
    macValue (loaded (List.replicate 4 0x80808080) (List.replicate 4 0x80808080) 0xFFFFFF80) = 0x00080000 := by decide

/-- MC-3 -/
theorem test_mac_mixed_signs :
    macValue (loaded (List.replicate 4 0x7F7F7F7F) (List.replicate 4 0x80808080) 0x7F) = 0xFFF81000 := by decide

/-- MC-4 -/
theorem test_mac_input_empty : macValue (loaded [] (List.replicate 4 0x01010101) 5) = 0x00000050 := by decide

/-- MC-5 -/
theorem test_mac_filter_empty : macValue (loaded (List.replicate 4 0x7F7F7F7F) [] 100) = 0 := by decide

/-- MC-8: lanes are sign-extended. -/
theorem test_mac_sign : macValue (loaded [0x000000FF, 0, 0, 0] [0x00000002, 0, 0, 0] 0) = 0xFFFFFFFE := by decide

/-! ## FlowRestrictor (FR-1 to FR-11) -/

/-- FR-1, FR-4, FR-5 -/
theorem test_gate_blocked :
    forwards 0 (offer true) = false ∧ forwards 3 (offer false) = false ∧
      forwards 3 { quietInput with outAccepted := true } = false ∧ nextCredit 3 (offer false) = 3 := by decide

/-- FR-3, FR-9 -/
theorem test_gate_forwards :
    forwards 3 (offer true) = true ∧ nextCredit 3 (offer true) = 2 ∧ nextCredit 1 (offer true) = 0 := by decide

/-- FR-2, FR-6 -/
theorem test_gate_release :
    nextCredit 0 (release 3 (by decide)) = 3 ∧ nextCredit 0 (release 0 (by decide)) = 0 ∧
      forwards 0 { release 3 (by decide) with inAvailable := true, outAccepted := true } = false := by decide

/-- FR-7, FR-8: a request while busy is dropped. -/
theorem test_gate_busy :
    nextCredit 2 { release 7 (by decide) with inAvailable := true, outAccepted := true } = 1 ∧
      nextCredit 2 (release 7 (by decide)) = 2 := by decide

/-- FR-11: the largest count of COUNT_WIDTH bits is loaded whole. -/
theorem test_gate_largest_count (x : StepInput) (h : x.releaseValid = true) (hc : x.releaseCount = BitVec.allOnes _) :
    nextCredit 0 x = 2 ^ Config.countWidth - 1 := by
  simp [nextCredit, releaseAccepted, releaseReady, h, hc]

/-- R95: an offer that is kept after a stalled step carries the same payload, or the producer breaks its duty. -/
theorem test_producer_duty (p q : BitVec Config.payloadWidth) (h : p ≠ q) :
    producerStable 2 [{ offer false with inPayload := p }, { offer true with inPayload := q }] = false ∧
      producerStable 2 [{ offer false with inPayload := p }, { offer true with inPayload := p }] = true := by
  simp [producerStable, producerStableFrom, offerKept, heldOffer, offer, quietInput, forwards, Ne.symm h]

/-- R95, R155: after a reset of the FlowRestrictor the credit is 0, so the first offer is not transferred and is to be kept;
without the reset it is transferred, and the next offer is free. -/
theorem test_producer_duty_after_reset (p q : BitVec Config.payloadWidth) (h : p ≠ q) :
    producerStable 3 [{ quietInput with reset := some .restrictor }, { offer true with inPayload := p },
        { offer true with inPayload := q }] = false ∧
      producerStable 3 [{ quietInput with reset := some .processor }, { offer true with inPayload := p },
        { offer true with inPayload := q }] = true := by
  simp [producerStable, producerStableFrom, offerKept, heldOffer, creditAfter, offer, quietInput, forwards, Ne.symm h]

/-- R95, R153: a reset event between two steps is no step, so an offer kept across it carries the same payload. -/
theorem test_producer_duty_across_reset (p q : BitVec Config.payloadWidth) (h : p ≠ q) :
    producerStable 3 [{ offer false with inPayload := p }, { quietInput with reset := some .core },
        { offer true with inPayload := q }] = false := by
  simp [producerStable, producerStableFrom, offerKept, heldOffer, offer, quietInput, forwards, Ne.symm h]

/-! ## Assembler (R75, R76) -/

theorem test_assemble_set : assembleLine "SET(VERIFY, 10) ; add ten".toList = some (.command (.setVerify 10)) := by decide
theorem test_assemble_negative : assembleLine "SET(VERIFY,-11)".toList = some (.command (.setVerify 0xFFFFFFF5)) := by decide
theorem test_assemble_hex :
    assembleLine " SET(INPUT_WORD, 0x0F0E0D0C)".toList = some (.command (.setInputWord 0x0F0E0D0C)) := by decide
theorem test_assemble_get : assembleLine "GET(MACC_OUT)".toList = some (.command .getMaccOut) := by decide
theorem test_assemble_ping : assembleLine "PING(1,2)".toList = some (.command (.ping 0 1 2)) := by decide
theorem test_assemble_pseudo :
    (["FIRE(5, 6)", "FIRE", "ADVANCE", "IDLE", "; nothing"].map fun l => assembleLine l.toList)
      = [some (.command (.ping 0 5 6)), some (.command (.ping 0 0 0)), some (.command .setAdvanceWindow), some .idle,
        some .blank] := by decide
theorem test_assemble_rejects :
    (["GET(INPUT_OFFSET)", "SET(VERIFY)", "PING(1)", "SET(VERIFY, 0x)"].map fun l => assembleLine l.toList)
      = [none, none, none, none] := by decide

/-! ## Witnesses: a state and operands that meet the hypotheses of each statement -/

/-- EncodeOfDecodeKeepsUsedBits -/
theorem witness_decodes : decode { sel := 0x029, in0 := 12, in1 := 5 } = .ok (.setInputOffset 12) := by decide

/-- ReservedOpCodesAreRefused: both ends of 3 to 7 -/
theorem witness_reserved_op :
    (nextInput (presented 0x003 0 0)).reset = none ∧ (nextInput (presented 0x003 0 0)).valid = true ∧
      3 ≤ (nextInput (presented 0x003 0 0)).cmd.op.toNat ∧ (nextInput (presented 0x007 0 0)).cmd.op.toNat = 7 := by decide

/-- WrongDirectionsAreRefused: GET of ids 1, 5 and 15, SET of ids 6 and 14 -/
theorem witness_wrong_direction :
    ([0x008, 0x028, 0x078, 0x031, 0x071].map fun sel =>
      ((nextInput (presented sel 0 0)).cmd.op.toNat, (nextInput (presented sel 0 0)).cmd.regId.toNat))
      = [(0, 1), (0, 5), (0, 15), (1, 6), (1, 14)] ∧
    (nextInput (presented 0x008 0 0)).reset = none ∧ (nextInput (presented 0x008 0 0)).valid = true := by decide

/-- UnmappedIdsAreRefused: GET of id 16 and SET of id 127 -/
theorem witness_unmapped_id :
    ([0x080, 0x3F9].map fun sel =>
      ((nextInput (presented sel 0 0)).cmd.op.toNat, (nextInput (presented sel 0 0)).cmd.regId.toNat))
      = [(0, 16), (1, 127)] ∧
    (nextInput (presented 0x080 0 0)).reset = none ∧ (nextInput (presented 0x080 0 0)).valid = true := by decide

/-- FirstRefusalReasonIsReported: two reasons apply and the first is ReservedOp (DS-7); and no reason applies -/
theorem witness_refusal_reasons :
    refusalReasons (nextInput (presented 0x083 0 0)).cmd = [.reservedOp, .unmappedId] ∧
      refusalReasons (nextInput (presented 0x009 40 0)).cmd = [] ∧
      refusalReasons (nextInput (presented 0x3FA 1 2)).cmd = [] ∧
      (nextInput (presented 0x083 0 0)).reset = none ∧ (nextInput (presented 0x083 0 0)).valid = true := by decide

/-- StepRunsTheDecodedCommand -/
theorem witness_step_runs :
    (nextInput (presented 0x079 0 0)).reset = none ∧ (nextInput (presented 0x079 0 0)).valid = true ∧
      decode (nextInput (presented 0x079 0 0)).cmd = .ok .setAdvanceWindow := by decide

/-- IdleStepKeepsTheProcessor: DS-10, after the end of the inputs and with a selector that would be reserved -/
theorem witness_idle :
    (nextInput State.reset).reset = none ∧ (nextInput State.reset).valid = false ∧
      ∃ s : State, (nextInput s).reset = none ∧ (nextInput s).valid = false ∧ (nextInput s).cmd.sel = 0x003 :=
  ⟨rfl, rfl, { State.reset with inputs := [{ quietInput with cmd := { sel := 0x003, in0 := 0, in1 := 0 } }] },
    rfl, rfl, rfl⟩

/-- CoreResetSetsEveryValue and EachBlockResetsAlone: each scope -/
theorem witness_reset_events :
    ([.core, .processor, .restrictor].map fun scope => (nextInput (presentedReset scope)).reset)
      = [some .core, some .processor, some .restrictor] := by decide

/-- A store of four appended words has the store invariant. -/
theorem full_store_inv (a b c d : Word) : (fullStore [a, b, c, d]).Inv where
  capacity := by simp [fullStore, Config.storeCapacity]
  empty := by simp [fullStore]
  pointers := by simp [fullStore]
  aligned := by simp [fullStore]
  memory := by rfl
  bounded := by
    intro e he
    simp [fullStore, List.range_succ] at he
    simp only [Config.storeCapacity]
    rcases he with rfl | rfl | rfl | rfl <;> simp
  rising := by rfl
  inUse := by simp [fullStore]
  listed := by
    intro i hi
    simp [fullStore] at hi
    interval_cases i <;> rfl

/-- EveryStepKeepsTheInvariant: a state with both stores loaded, and a PING presented -/
theorem witness_invariant :
    ∃ s t : State, s.Inv ∧ (nextInput s).cmd.sel = 0x002 ∧ step s = .next t :=
  ⟨{ loaded [1, 2, 3, 4] [5, 6, 7, 8] 9 with inputs := (presented 0x002 1 2).inputs }, _,
    ⟨full_store_inv 1 2 3 4, full_store_inv 5 6 7 8, small_count 0 (by decide)⟩, rfl, rfl⟩

/-- PingEchoesAndTicks: the lowest and the highest selector of PING -/
theorem witness_ping_selectors : (0x002 : Selector) &&& 0x007 = 0x002 ∧ (0x3FA : Selector) &&& 0x007 = 0x002 := by decide

/-- VerifyAccumulationLaw -/
theorem witness_verify_law :
    ∀ i ∈ [Instr.setVerify 0, .getVerify, .ping 0 1 2, .setVerify 10],
      isSetVerify i = true ∨ isGet i = true ∨ isPing i = true := by decide

/-- PingDelayLaw: L1-1's first two calls -/
theorem witness_ping_law : ∃ s, runCommands [.ping 0 1 2, .getVerify, .setVerify 10] State.reset = .next s := ⟨_, rfl⟩

/-- ConfigureInputStore and ConfigureFilterStore: 40 words always fit -/
theorem witness_capacity_fits : (40 : Word).toNat ≤ Config.storeCapacity := by decide

/-- ConfigureInputStore and ConfigureFilterStore: some operand exceeds every capacity below 2^32 - 1 -/
theorem witness_capacity_exceeded (h : Config.storeCapacity + 1 < 2 ^ 32) :
    Config.storeCapacity < (BitVec.ofNat 32 (Config.storeCapacity + 1)).toNat := by
  simp only [BitVec.toNat_ofNat]
  omega

/-- AppendInputWord and AppendFilterWord: an empty store and one with words -/
theorem witness_append : State.reset.input.n = 0 ∧ State.reset.filter.n = 0 ∧ 0 < (loaded [1, 2] [3] 0).input.n ∧
    0 < (loaded [1, 2] [3] 0).filter.n := by decide

/-- InputReadbacks and FilterReadbacks: a known word of an empty store, and the last word of a window at 4 -/
theorem witness_known_word :
    windowWordKnown State.reset.input 0 0 ∧
      windowWordKnown { fullStore [10, 11, 12, 13, 14, 15, 16, 17] with windowBase := 4 } 3 17 :=
  ⟨.inl ⟨rfl, rfl⟩, .inr (by decide)⟩

/-- A full store of four words has a known window. -/
theorem full_window (a b c d : Word) : windowIs (fullStore [a, b, c, d]) (fun j => [a, b, c, d].getD j 0) := by
  intro j hj
  interval_cases j <;> exact .inr ⟨by simp [fullStore], by simp [fullStore], by simp [fullStore], rfl⟩

/-- ReadbackLaw: 8 words, the last window (k = 1) -/
theorem witness_readback_law :
    ([1, 2, 3, 4, 5, 6, 7, 8] : List Word).length % 4 = 0 ∧
      ([1, 2, 3, 4, 5, 6, 7, 8] : List Word).length ≤ Config.storeCapacity ∧
      ([1, 2, 3, 4, 5, 6, 7, 8] : List Word).length < 2 ^ 32 ∧
      1 < ([1, 2, 3, 4, 5, 6, 7, 8] : List Word).length / 4 := by decide

/-- WrapLaw, first part: n = 8 at window 0; second part: m = n = 2, and m = 0 -/
theorem witness_wrap_law :
    0 < ((loaded [1, 2, 3, 4, 5, 6, 7, 8] [] 0).store .input).n ∧
      ((loaded [1, 2, 3, 4, 5, 6, 7, 8] [] 0).store .input).n % 4 = 0 ∧
      ((loaded [1, 2, 3, 4, 5, 6, 7, 8] [] 0).store .input).windowBase = 0 ∧
      ([1, 2] : List Word).length ≤ Config.storeCapacity ∧ ([1, 2] : List Word).length < 2 ^ 32 ∧
      ([3, 4] : List Word).length ≤ ([1, 2] : List Word).length ∧
      ([] : List Word).length ≤ ([1, 2] : List Word).length := by decide

/-- AppendedWordReadsBackAtOnce: ST-10, and the last word of the window -/
theorem witness_append_reads_back :
    0 < ((loaded [1, 2, 3, 4] [] 0).store .input).n ∧ ((loaded [1, 2, 3, 4] [] 0).store .input).n % 4 = 0 ∧
      (((loaded [1, 2, 3, 4] [] 0).store .input).windowBase + 0) % 4 = ((loaded [1, 2, 3, 4] [] 0).store .input).writePos ∧
      ((0 + 3) % 4 = 3) := by decide

/-- PingLatchesTheDotProduct, NoWrapForTestedOffsets (both ends of the offsets) and ResultVisibleAfterThePing -/
theorem witness_windows (offset : Word) (h : offset = 0xFFFFFF80 ∨ offset = 0x0000007F) :
    windowIs (loaded [1, 2, 3, 4] [5, 6, 7, 8] offset).input (fun j => [1, 2, 3, 4].getD j 0) ∧
      windowIs (loaded [1, 2, 3, 4] [5, 6, 7, 8] offset).filter (fun j => [5, 6, 7, 8].getD j 0) ∧
      -128 ≤ (loaded [1, 2, 3, 4] [5, 6, 7, 8] offset).inputOffset.toInt ∧
      (loaded [1, 2, 3, 4] [5, 6, 7, 8] offset).inputOffset.toInt ≤ 127 := by
  refine ⟨full_window 1 2 3 4, full_window 5 6 7 8, ?_, ?_⟩ <;> rcases h with rfl | rfl <;> decide

/-- EmptyStoresGiveZero -/
theorem witness_empty_stores :
    State.reset.input.n = 0 ∧ State.reset.filter.n = 0 ∧
      ∀ i ∈ [Instr.getMaccOut, .setAdvanceWindow, .ping 0 1 2],
        isGet i = true ∨ i = .setAdvanceWindow ∨ isPing i = true := by decide

/-- OneEmptyStore: MC-5, and MC-4 with its filter window -/
theorem witness_one_empty_store :
    (loaded [1, 2, 3, 4] [] 100).filter.n = 0 ∧ (loaded [] [5, 6, 7, 8] 5).input.n = 0 ∧
      0 < (loaded [] [5, 6, 7, 8] 5).filter.n ∧
      windowIs (loaded [] [5, 6, 7, 8] 5).filter (fun j => [5, 6, 7, 8].getD j 0) :=
  ⟨rfl, rfl, by decide, full_window 5 6 7 8⟩

/-- LatchIsStableBetweenPings and ResultVisibleAfterThePing: commands without a PING, and a run with one -/
theorem witness_runs_around_a_ping :
    (∀ i ∈ [Instr.getMaccOut, .setVerify 3, .setAdvanceWindow], isPing i = false) ∧
      (∃ t, runCommands [.getMaccOut, .setVerify 3, .setAdvanceWindow] (loaded [1, 2, 3, 4] [5, 6, 7, 8] 12) = .next t ∧
        t.input = (loaded [1, 2, 3, 4] [5, 6, 7, 8] 12).input) ∧
      ∃ t, runCommands [.ping 0 1 2, .getMaccOut, .setVerify 3] (loaded [1, 2, 3, 4] [5, 6, 7, 8] 12) = .next t :=
  ⟨by decide, ⟨_, rfl, rfl⟩, ⟨_, rfl⟩⟩

/-- ResultVisibleAfterThePing: all hypotheses together -/
theorem witness_visible_result :
    (∀ i ∈ [Instr.getMaccOut], isPing i = false) ∧ (∀ i ∈ [Instr.setVerify 3], isPing i = false) ∧
      ∃ u t, runCommands [.getMaccOut] (loaded [1, 2, 3, 4] [5, 6, 7, 8] 12) = .next u ∧
        windowIs u.input (fun j => [1, 2, 3, 4].getD j 0) ∧ windowIs u.filter (fun j => [5, 6, 7, 8].getD j 0) ∧
        runCommands [.ping 0 1 2, .setVerify 3] u = .next t :=
  ⟨by decide, by decide, _, _, rfl, full_window 1 2 3 4, full_window 5 6 7 8, rfl⟩

/-- OnlyPingOrResetWritesTheLatch: a PING step that changes the latch (MC-4's value) -/
theorem witness_latch_written :
    (nextOf (step { loaded [] (List.replicate 4 0x01010101) 5 with inputs := (presented 0x002 0 0).inputs })).map
      (fun t => t.maccLatch) = some 80 := by decide

/-- LoadedStoresGiveTheDotProduct -/
theorem witness_loaded_stores :
    0 < lanes0to15.length ∧ lanes0to15.length % 4 = 0 ∧ lanes0to15.length ≤ Config.storeCapacity ∧
      lanes0to15.length < 2 ^ 32 := by decide

/-- MacIndependentOfLaneLayout: the words of one state with their bytes reversed in the other -/
theorem witness_lane_layout :
    (∀ (j : Nat) (k : Fin 4),
      laneOf (fun _ => 0x04030201) (4 * j + k.val) = laneOf (fun _ => 0x01020304) (4 * j + (Fin.revPerm k).val) ∧
        laneOf (fun _ => 0x08070605) (4 * j + k.val) = laneOf (fun _ => 0x05060708) (4 * j + (Fin.revPerm k).val)) ∧
      windowIs (loaded (List.replicate 4 0x01020304) (List.replicate 4 0x05060708) 3).input (fun _ => 0x01020304) ∧
      windowIs (loaded (List.replicate 4 0x01020304) (List.replicate 4 0x05060708) 3).filter (fun _ => 0x05060708) ∧
      windowIs (loaded (List.replicate 4 0x04030201) (List.replicate 4 0x08070605) 3).input (fun _ => 0x04030201) ∧
      windowIs (loaded (List.replicate 4 0x04030201) (List.replicate 4 0x08070605) 3).filter (fun _ => 0x08070605) := by
  have window : ∀ w : Word, windowIs (fullStore [w, w, w, w]) fun _ => w := by
    intro w j hj
    interval_cases j <;> exact .inr ⟨by simp [fullStore], by simp [fullStore], by simp [fullStore], rfl⟩
  refine ⟨fun j k => ?_, window _, window _, window _, window _⟩
  have hk : ∀ i : Fin 4, (4 * j + i.val) % 4 = i.val := fun i => by omega
  simp only [laneOf, hk]
  fin_cases k <;> decide

/-- GetsArePureAndAgree, ConfigurationsAreIdempotent and the frames over all commands: a GET, a configuration that answers a
next state, and an append -/
theorem witness_commands :
    isGet .getFilterLane2 = true ∧ (∃ t, exec (.setInputNumWords 40) State.reset = .next t) ∧
      (∃ t, exec (.setFilterNumWords 0) State.reset = .next t) ∧ (∃ t, exec (.setInputOffset 1) State.reset = .next t) ∧
      (∃ t, exec (.setFilterWord 9) (loaded [] [1, 2] 0) = .next t) :=
  ⟨rfl, ⟨_, rfl⟩, ⟨_, rfl⟩, ⟨_, rfl⟩, ⟨_, rfl⟩⟩

/-- OnlyAppendsWriteWords: an append to FilterStore leaves its word 1 and all of InputStore -/
theorem witness_other_words :
    (1 : Nat) ≠ ((loaded [] [1, 2] 0).store .filter).writePos ∧ (loaded [] [1, 2] 0).input.n = 0 ∧
      ∀ v, Instr.setFilterWord 9 ≠ appendCommand .input v := ⟨by decide, rfl, fun _ h => nomatch h⟩

/-- StepTakesTheRestrictorStep: a step that forwards (FR-3) beside an idle command -/
theorem witness_gate_step :
    ∃ s t : State, (nextInput s).reset = none ∧ step s = .next t ∧ s.credit = 3 ∧ t.credit = 2 :=
  ⟨{ State.reset with credit := 3, inputs := [offer true] }, _, rfl, rfl, rfl, by decide⟩

/-- TransfersCoincide, CreditHolds: a forwarding step, and one with neither release nor forward -/
theorem witness_gate_cases :
    forwards 3 (offer true) = true ∧ releaseAccepted 3 (offer false) = false ∧ forwards 3 (offer false) = false := by decide

/-- IdleGateBlocksForEver, BusyRequestHasNoEffect, ReleaseOfZeroIsAccepted -/
theorem witness_gate_requests :
    (∀ x ∈ [offer true, offer false], x.releaseValid = false) ∧ 0 < 2 ∧ (release 7 (by decide)).releaseValid = true ∧
      (release 0 (by decide)).releaseValid = true ∧ (release 0 (by decide)).releaseCount = 0 := by
  refine ⟨?_, by decide, rfl, rfl, rfl⟩
  simp [offer, quietInput]

/-- EveryEntryMovesTheCredit: a reset event of the FlowRestrictor, one of the CommandProcessor, and a forwarding step -/
theorem witness_credit_moves :
    (nextOf (step (presentedReset .restrictor))).map (fun t => t.credit) = some 0 ∧
      (nextOf (step (presentedReset .processor))).map (fun t => t.credit) = some 3 ∧
      (nextOf (step { State.reset with credit := 3, inputs := [offer true] })).map (fun t => t.credit) = some 2 := by decide

/-- CountIsReadOnlyOnAcceptance: a busy step that requests and forwards -/
theorem witness_count_unread :
    releaseAccepted 2 { release 7 (by decide) with inAvailable := true, outAccepted := true } = false ∧
      forwards 2 { release 7 (by decide) with inAvailable := true, outAccepted := true } = true := by decide

/-- HeldOfferLeavesUnchanged: an offer stalled in two steps, with a reset event between them, and transferred after that -/
theorem witness_held_offer :
    offersStalled 3 [offer false, { quietInput with reset := some .processor }, offer false] = true ∧
      producerStable 3 ([offer false, { quietInput with reset := some .processor }, offer false] ++ [offer true]) = true ∧
      forwards ([offer false, { quietInput with reset := some .processor }, offer false].foldl creditAfter 3)
        (offer true) = true := by
  simp [offersStalled, producerStable, producerStableFrom, offerKept, heldOffer, creditAfter, offer, quietInput, forwards,
    nextCredit, releaseAccepted]

/-- AcceptingStepForwardsNothing and ReleaseForwardsExactlyItsCount: a release of 2, one forward, and the second one -/
theorem witness_release :
    releaseAccepted 0 (release 2 (by decide)) = true ∧ (release 2 (by decide)).releaseCount.toNat = 2 ∧
      (release 2 (by decide)).releaseCount.toNat ≠ 0 ∧ (offer true).inAvailable = true ∧ (offer true).outAccepted = true ∧
      nextCredit 0 (release 2 (by decide)) = 2 ∧
      forwardCount (runRestrictor 2 0 [offer false, offer true]).2 = 1 ∧
      forwardCount (runRestrictor 2 0 ([offer false, offer true] ++ [offer true])).2 = 2 := by decide

/-- CreditUsedUpInExactlyItsSteps -/
theorem witness_credit_used_up :
    [offer true, offer true].length = 2 ∧
      ∀ x ∈ [offer true, offer true], x.inAvailable = true ∧ x.outAccepted = true := by
  simp [offer]

end Sys2Proof.Tests
end

section
/-! SUPPORT. The effect of a command on each store, said once; the invariant it keeps, and the words it leaves (R32, R47). -/

namespace Sys2Proof.Machine

/-- What the command `i` can do to the store of `id` (R113 to R116, R125). -/
inductive StoreEffect (i : Instr) (id : StoreId) (st : Store) : Store → Prop where
  /-- the command leaves the store alone -/
  | same : StoreEffect i id st st
  /-- the store's SET(*_NUM_WORDS), within the capacity -/
  | configured (v : Word) (command : i = configureCommand id v) (fits : v.toNat ≤ Config.storeCapacity) :
      StoreEffect i id st (st.configured v.toNat)
  /-- the store's SET(*_WORD) -/
  | appended (v : Word) (command : i = appendCommand id v) : StoreEffect i id st (st.appended v)
  /-- SET(ADVANCE_WINDOW) -/
  | advanced (command : i = .setAdvanceWindow) : StoreEffect i id st st.advanced

/-- SET(*_NUM_WORDS) that answers a next state was within the capacity (R113, R114). -/
theorem configureStore_next {id : StoreId} {v : Word} {s t : State} (h : configureStore id v s = .next t) :
    v.toNat ≤ Config.storeCapacity ∧ t = completeSet (s.setStore id ((s.store id).configured v.toNat)) := by
  rcases configureStore_cases id v s with ⟨-, hr⟩ | ⟨hfits, hn⟩
  · cases hr.symm.trans h
  · cases hn.symm.trans h
    exact ⟨hfits, rfl⟩

/-- SET(*_NUM_WORDS) configures its own store and leaves the other one alone. -/
theorem configureStore_effect {id : StoreId} {v : Word} {s t : State} (h : configureStore id v s = .next t)
    (other : StoreId) : StoreEffect (configureCommand id v) other (s.store other) (t.store other) := by
  obtain ⟨hfits, rfl⟩ := configureStore_next h
  rw [store_completeSet]
  by_cases he : other = id
  · subst he
    rw [store_setStore_same]
    exact .configured v rfl hfits
  · rw [store_setStore_other _ _ _ _ he]
    exact .same

/-- SET(*_WORD) appends to its own store and leaves the other one alone. -/
theorem appendWord_effect {id : StoreId} {v : Word} {s t : State} (h : appendWord id v s = .next t)
    (other : StoreId) : StoreEffect (appendCommand id v) other (s.store other) (t.store other) := by
  cases (appendWord_eq id v s).symm.trans h
  rw [store_completeSet]
  by_cases he : other = id
  · subst he
    rw [store_setStore_same]
    exact .appended v rfl
  · rw [store_setStore_other _ _ _ _ he]
    exact .same

/-- Everything a command can do to a store. -/
theorem exec_storeEffect {i : Instr} {s t : State} (h : exec i s = .next t) (id : StoreId) :
    StoreEffect i id (s.store id) (t.store id) := by
  cases i with
  | setInputNumWords v => exact configureStore_effect (id := .input) h id
  | setFilterNumWords v => exact configureStore_effect (id := .filter) h id
  | setInputWord v => exact appendWord_effect (id := .input) h id
  | setFilterWord v => exact appendWord_effect (id := .filter) h id
  | setAdvanceWindow =>
    cases h
    cases id <;> exact .advanced rfl
  | getVerify | getMaccOut | getInputLane0 | getInputLane1 | getInputLane2 | getInputLane3
  | getFilterLane0 | getFilterLane1 | getFilterLane2 | getFilterLane3
  | setVerify _ | setInputOffset _ | ping _ _ _ =>
    cases h
    cases id <;> exact .same

/-- No command writes the credit (R141). -/
theorem exec_credit {i : Instr} {s t : State} (h : exec i s = .next t) : t.credit = s.credit := by
  cases i with
  | setInputNumWords v => simp [(configureStore_next (id := .input) h).2]
  | setFilterNumWords v => simp [(configureStore_next (id := .filter) h).2]
  | getVerify | getMaccOut | getInputLane0 | getInputLane1 | getInputLane2 | getInputLane3
  | getFilterLane0 | getFilterLane1 | getFilterLane2 | getFilterLane3
  | setVerify _ | setInputWord _ | setFilterWord _ | setInputOffset _ | setAdvanceWindow | ping _ _ _ =>
    cases h
    rfl

/-! ## The invariant of a store -/

/-- A store right after reset has the invariant (R38). -/
theorem Store.inv_reset : Store.reset.Inv where
  capacity := Nat.zero_le _
  empty := fun _ => ⟨rfl, rfl⟩
  pointers := fun h => absurd h (Nat.lt_irrefl 0)
  aligned := fun _ => rfl
  memory := wf_reset
  bounded := by simp [Store.reset]
  rising := rfl
  inUse := by simp [Store.reset]
  listed := by simp [Store.reset]

/-- A configuration within the capacity keeps the invariant: the words stay and none counts as written. -/
theorem Store.Inv.configured {st : Store} (hst : st.Inv) {n : Nat} (hfits : n ≤ Config.storeCapacity) :
    (st.configured n).Inv where
  capacity := hfits
  empty := fun _ => ⟨rfl, rfl⟩
  pointers := fun h => ⟨h, h⟩
  aligned := fun _ => rfl
  memory := hst.memory
  bounded := hst.bounded
  rising := rfl
  inUse := by simp
  listed := by simp

/-- Marking and writing the word at the write pointer keeps every written word listed (R47). -/
theorem listed_write {m : Memory} {l : List Nat} (h : ∀ j ∈ l, (Memory.read m j).isSome = true) (i : Nat) (v : Word) :
    ∀ j ∈ markWritten l i, (Memory.read (Memory.write m i v) j).isSome = true := by
  intro j hj
  by_cases he : j = i
  · simp [he]
  · rw [read_write_other m i j v he]
    exact h j (((mem_markWritten l i j).1 hj).resolve_left he)

/-- An append keeps the invariant: the write pointer it uses lies below the word count, and so does the next one. -/
theorem Store.Inv.appended {st : Store} (hst : st.Inv) (v : Word) : (st.appended v).Inv := by
  rcases Nat.eq_zero_or_pos st.n with hn | hn
  · rwa [appended_empty st v hn]
  · obtain ⟨hpos, hbase⟩ := hst.pointers hn
    rw [appended_nonempty st v hn]
    exact {
      capacity := hst.capacity
      empty := fun h => absurd h hn.ne'
      pointers := fun _ => ⟨Nat.mod_lt _ hn, hbase⟩
      aligned := hst.aligned
      memory := wf_write _ _ _ hst.memory
      bounded := fun e he => by
        rcases mem_write _ _ _ e he with rfl | hold
        · exact hpos.trans_le hst.capacity
        · exact hst.bounded e hold
      rising := rising_markWritten _ _ hst.rising
      inUse := fun j hj => by
        rcases (mem_markWritten _ _ _).1 hj with rfl | hold
        · exact hpos
        · exact hst.inUse j hold
      listed := listed_write hst.listed _ v }

/-- An advance keeps the invariant: modulo a multiple of 4, a base moved by 4 stays aligned (R45). -/
theorem Store.Inv.advanced {st : Store} (hst : st.Inv) : st.advanced.Inv := by
  rcases Nat.eq_zero_or_pos st.n with hn | hn
  · rwa [advanced_empty st hn]
  · rw [advanced_nonempty st hn]
    exact { hst with
      empty := fun h => absurd h hn.ne'
      pointers := fun _ => ⟨(hst.pointers hn).1, Nat.mod_lt _ hn⟩
      aligned := fun h4 =>
        calc (st.windowBase + 4) % st.n % 4
          _ = (st.windowBase + 4) % 4 := Nat.mod_mod_of_dvd _ (Nat.dvd_of_mod_eq_zero h4)
          _ = st.windowBase % 4 := Nat.add_mod_right _ _
          _ = 0 := hst.aligned h4 }

/-- Whatever a command does to a store keeps the store's invariant. -/
theorem StoreEffect.keeps_inv {i : Instr} {id : StoreId} {st st' : Store} (h : StoreEffect i id st st')
    (hst : st.Inv) : st'.Inv := by
  cases h with
  | same => exact hst
  | configured v _ hfits => exact hst.configured hfits
  | appended v _ => exact hst.appended v
  | advanced _ => exact hst.advanced

/-! ## The invariant of the machine -/

/-- A next credit fits in COUNT_WIDTH bits: it is a release count, or no more than the credit was (R33). -/
theorem nextCredit_lt {credit : Nat} (h : credit < 2 ^ Config.countWidth) (x : StepInput) :
    nextCredit credit x < 2 ^ Config.countWidth := by
  rcases nextCredit_cases credit x with ⟨-, -, hc⟩ | ⟨-, -, -, -, hc⟩ | ⟨-, -, hc⟩ <;> rw [hc]
  · exact x.releaseCount.isLt
  · exact (Nat.sub_le _ _).trans_lt h
  · exact h

/-- A command that answers a next state keeps the invariant. -/
theorem exec_keeps_inv {i : Instr} {s t : State} (h : exec i s = .next t) (hs : s.Inv) : t.Inv where
  input := (exec_storeEffect h .input).keeps_inv hs.input
  filter := (exec_storeEffect h .filter).keeps_inv hs.filter
  credit := (exec_credit h).symm ▸ hs.credit

/-- The FlowRestrictor's step keeps the invariant. -/
theorem restrictorStep_keeps_inv {s : State} (hs : s.Inv) (x : StepInput) : (restrictorStep x s).Inv where
  input := hs.input
  filter := hs.filter
  credit := nextCredit_lt hs.credit x

/-- A reset event keeps the invariant: it gives each block it resets its reset values (R38, R155). -/
theorem resetEvent_keeps_inv {s : State} (hs : s.Inv) (scope : ResetScope) : (resetEvent scope s).Inv := by
  cases scope with
  | processor => exact ⟨Store.inv_reset, Store.inv_reset, hs.credit⟩
  | restrictor => exact ⟨hs.input, hs.filter, Nat.two_pow_pos _⟩
  | core => exact ⟨Store.inv_reset, Store.inv_reset, Nat.two_pow_pos _⟩

/-- Settles O16: the FlowRestrictor's step, then the command, each keep it; an idle command and taking an entry off the
input list change nothing it speaks of. -/
theorem everyStepKeepsTheInvariant : Obligations.EveryStepKeepsTheInvariant := by
  intro s t hs h
  have htaken : (takeInput s).Inv := ⟨hs.input, hs.filter, hs.credit⟩
  have hmoved : (restrictorStep (nextInput s) (takeInput s)).Inv := restrictorStep_keeps_inv htaken _
  rcases step_cases s with ⟨scope, -, hreset⟩ | ⟨-, -, hidle⟩ | ⟨i, -, -, -, hexec⟩ | ⟨r, -, -, -, hrefused⟩
  · cases hreset.symm.trans h
    exact resetEvent_keeps_inv htaken scope
  · cases hidle.symm.trans h
    exact ⟨hmoved.input, hmoved.filter, hmoved.credit⟩
  · exact exec_keeps_inv (hexec.symm.trans h) hmoved
  · cases hrefused.symm.trans h

/-! ## The words of the stores -/

/-- An append leaves every word but the one at the write pointer of a store with words (R47). -/
theorem read_appended_other {st : Store} {a : Nat} (h : st.n = 0 ∨ a ≠ st.writePos) (v : Word) :
    Memory.read (st.appended v).buf a = Memory.read st.buf a := by
  rcases Nat.eq_zero_or_pos st.n with hn | hn
  · rw [appended_empty st v hn]
  · rw [appended_nonempty st v hn]
    exact read_write_other _ _ _ v (h.resolve_left hn.ne')

/-- An advance moves the window and no word (R125). -/
@[simp] theorem advanced_buf (st : Store) : st.advanced.buf = st.buf := by
  rcases Nat.eq_zero_or_pos st.n with hn | hn
  · rw [advanced_empty st hn]
  · rw [advanced_nonempty st hn]

/-- Settles O46: of the effects a command has on a store, an append alone touches the words. -/
theorem onlyAppendsWriteWords : Obligations.OnlyAppendsWriteWords := by
  intro i s t h id a hother
  have heffect := exec_storeEffect h id
  generalize s.store id = st, t.store id = st' at heffect hother ⊢
  cases heffect with
  | same => rfl
  | configured v _ _ => rw [configured_buf]
  | appended v hi => exact read_appended_other (hother.resolve_left fun hne => hne v hi) v
  | advanced _ => rw [advanced_buf]

end Sys2Proof.Machine
end

section
/-! SUPPORT. The MAC value where the spec fixes every window word (R131), and its lanes in another layout (R44). -/

namespace Sys2Proof.Machine

/-! ## Windows the spec fixes -/

/-- A window word the spec fixes is the word read, whatever the free values are (R46, R48). -/
theorem winWord_of_windowWordKnown {st : Store} {j : Nat} {w : Word} (h : windowWordKnown st j w) (epoch : Nat)
    (id : StoreId) : winWord epoch id st j = w := by
  rcases h with ⟨hn, rfl⟩ | ⟨hn, h4, hwritten, hread⟩
  · exact winWord_empty epoch id st j hn
  · exact winWord_appended epoch id st j w hn.ne' h4 ((appended_word_eq st _ hwritten).trans hread)

/-- A window word the spec fixes draws no free value (R48). -/
theorem winWordKnown_of_windowWordKnown {st : Store} {j : Nat} {w : Word} (h : windowWordKnown st j w) :
    winWordKnown st j = true := by
  rcases h with ⟨hn, -⟩ | ⟨-, h4, hwritten, hread⟩
  · simp [winWordKnown, hn]
  · simp [winWordKnown, windowWords, windowIndex, h4, appended_word_eq st _ hwritten, hread]

/-- Four known words make a known window. -/
theorem windowKnown_of_windowIs {st : Store} {ws : Nat → Word} (h : windowIs st ws) : windowKnown st = true :=
  List.all_eq_true.2 fun j hj => winWordKnown_of_windowWordKnown (h j (List.mem_range.1 hj))

/-- The 16 lanes of a known window are those of its words (R49). -/
theorem winLane_of_windowIs {st : Store} {ws : Nat → Word} (h : windowIs st ws) (epoch : Nat) (id : StoreId) {m : Nat}
    (hm : m < 16) : winLane epoch id st m = laneOf ws m := by
  have hword : winWord epoch id st (m / lanesPerWord) = ws (m / 4) :=
    winWord_of_windowWordKnown (h (m / 4) (by omega)) epoch id
  rw [winLane, hword]
  rfl

/-- The known window of an empty store has all lanes 0 (R48). -/
theorem laneOf_empty {st : Store} {ws : Nat → Word} (h : windowIs st ws) (hn : st.n = 0) {m : Nat} (hm : m < 16) :
    laneOf ws m = 0 := by
  rw [← winLane_of_windowIs h 0 .input hm, winLane, winWord_empty _ _ _ _ hn]
  simp [lane]

/-- The sum inside the MAC value of known windows is the dot product of their words (R131). -/
theorem macSum_of_windowIs {s : State} {ins fls : Nat → Word} (hi : windowIs s.input ins) (hf : windowIs s.filter fls) :
    macSum s = windowDot s.inputOffset.toInt ins fls := by
  calc macSum s
    _ = ∑ m ∈ Finset.range 16, (sint s.inputOffset + winLane s.epoch .input s.input m) *
          winLane s.epoch .filter s.filter m := rfl
    _ = windowDot s.inputOffset.toInt ins fls := Finset.sum_congr rfl fun m hm => by
      rw [winLane_of_windowIs hi _ _ (Finset.mem_range.1 hm), winLane_of_windowIs hf _ _ (Finset.mem_range.1 hm), sint]

/-- The MAC value of known windows is their dot product modulo 2^32, an empty FilterStore included (R131, R135). -/
theorem macValue_of_windowIs {s : State} {ins fls : Nat → Word} (hi : windowIs s.input ins)
    (hf : windowIs s.filter fls) : macValue s = BitVec.ofInt 32 (windowDot s.inputOffset.toInt ins fls) := by
  by_cases hn : s.filter.n = 0
  · have hdot : windowDot s.inputOffset.toInt ins fls = 0 :=
      Finset.sum_eq_zero fun m hm => by rw [laneOf_empty hf hn (Finset.mem_range.1 hm), mul_zero]
    rw [macValue_filter_empty s hn, hdot]
    rfl
  · rw [macValue_known s hn (windowKnown_of_windowIs hi) (windowKnown_of_windowIs hf), macSum_of_windowIs hi hf]
    rfl

/-! ## The layout of the lanes -/

/-- The dot product, word by word and lane by lane. -/
theorem windowDot_eq_sum_words (offset : Int) (ins fls : Nat → Word) :
    windowDot offset ins fls =
      ∑ j ∈ Finset.range 4, ∑ k : Fin 4, (offset + laneOf ins (4 * j + k.val)) * laneOf fls (4 * j + k.val) := by
  simp [windowDot, Finset.sum_range_succ, Fin.sum_univ_four, add_assoc]

/-- The dot product of windows whose lanes are permuted alike inside every word (R44). -/
theorem windowDot_permuted {σ : Equiv.Perm (Fin 4)} {ins fls ins' fls' : Nat → Word}
    (h : ∀ (j : Nat) (k : Fin 4), laneOf ins' (4 * j + k.val) = laneOf ins (4 * j + (σ k).val) ∧
      laneOf fls' (4 * j + k.val) = laneOf fls (4 * j + (σ k).val)) (offset : Int) :
    windowDot offset ins' fls' = windowDot offset ins fls := by
  simp only [windowDot_eq_sum_words, (h _ _).1, (h _ _).2]
  exact Finset.sum_congr rfl fun j _ =>
    Equiv.sum_comp σ fun k => (offset + laneOf ins (4 * j + k.val)) * laneOf fls (4 * j + k.val)

/-- Settles O42: both PINGs latch a dot product, and permuting the lanes of both factors only reorders its sum. -/
theorem macIndependentOfLaneLayout : Obligations.MacIndependentOfLaneLayout := by
  intro σ offset ins fls ins' fls' hlanes r a b s t hs ht hins hfls hins' hfls'
  refine ⟨_, _, rfl, rfl, ?_⟩
  calc macValue s
    _ = BitVec.ofInt 32 (windowDot offset ins fls) := hs ▸ macValue_of_windowIs hins hfls
    _ = BitVec.ofInt 32 (windowDot offset ins' fls') := by rw [windowDot_permuted hlanes]
    _ = macValue t := (ht ▸ macValue_of_windowIs hins' hfls').symm

end Sys2Proof.Machine
end

section
/-! SUPPORT. Commands given again: GETs agree, and configurations are idempotent (R52, R53). -/

namespace Sys2Proof.Machine

/-- Settles O43: each GET reads VERIFY, the latch, or a store and the epoch, and drives the result alone. -/
theorem getsArePureAndAgree : Obligations.GetsArePureAndAgree := by
  intro i s hget
  cases i with
  | getVerify | getMaccOut | getInputLane0 | getInputLane1 | getInputLane2 | getInputLane3
  | getFilterLane0 | getFilterLane1 | getFilterLane2 | getFilterLane3 =>
    exact ⟨_, rfl, fun _ _ _ _ _ => rfl⟩
  | setVerify _ | setInputNumWords _ | setInputWord _ | setFilterNumWords _ | setFilterWord _
  | setInputOffset _ | setAdvanceWindow | ping _ _ _ => cases hget

/-- SET(*_NUM_WORDS) given again finds its store configured as it leaves it, and moves the counter alone (R53). -/
theorem configureStore_again {id : StoreId} {v : Word} {s t : State} (h : configureStore id v s = .next t) :
    configureStore id v t = .next { t with epoch := t.epoch + 1 } := by
  obtain ⟨hfits, rfl⟩ := configureStore_next h
  rcases configureStore_cases id v (completeSet (s.setStore id ((s.store id).configured v.toNat))) with
    ⟨hlarge, -⟩ | ⟨-, hnext⟩
  · omega
  · rw [hnext]
    cases id <;> rfl

/-- Settles O44: a second configuration writes what the first one wrote. -/
theorem configurationsAreIdempotent : Obligations.ConfigurationsAreIdempotent := by
  rintro i v s t (rfl | rfl | rfl) h
  · exact ⟨_, configureStore_again (id := .input) h⟩
  · exact ⟨_, configureStore_again (id := .filter) h⟩
  · cases h
    exact ⟨_, rfl⟩

end Sys2Proof.Machine
end

section
/-! SUPPORT. The order in which elements pass the FlowRestrictor (R57, R84). -/

namespace Sys2Proof.Machine

/-- A step forwards only an element that is offered (R81). -/
theorem inAvailable_of_forwards {credit : Nat} {x : StepInput} (h : forwards credit x = true) :
    x.inAvailable = true := by
  simp only [forwards, Bool.and_eq_true] at h
  exact h.1.2

/-- The element that leaves in a step is the element that arrives in it; without a forward there is neither (R84). -/
theorem leaving_eq_arriving (credit steps : Nat) (x : StepInput) :
    (if (gateOutputs credit steps x).outAvailable then some (gateOutputs credit steps x).outPayload else none) =
      if x.inAvailable && (gateOutputs credit steps x).inAccepted then some x.inPayload else none := by
  cases hf : forwards credit x
  · simp [gateOutputs, hf]
  · simp [gateOutputs, hf, inAvailable_of_forwards hf]

/-- Settles O56, by induction on the steps: each one lets out what it lets in. -/
theorem arrivalOrderIsKept : Obligations.ArrivalOrderIsKept := by
  intro credit steps xs
  induction xs generalizing credit steps with
  | nil => rfl
  | cons x xs ih =>
    simp only [runRestrictor, List.zip_cons_cons, List.filterMap_cons, leaving_eq_arriving, ih]

end Sys2Proof.Machine
end

section
/-! SUPPORT. What the decoder answers, said once in both directions (R64 to R68), and the reserved commands it refuses
(R69 to R72, R77). -/

namespace Sys2Proof

open Laws.SelectorEncoding (selector_toNat selector_op selector_regId)

/-! ## The selector -/

/-- A selector is the register id and the op code it holds (R64). -/
theorem sel_eq_append_iff (c : Command) (regId : RegId) (op : OpCode) :
    c.sel = regId ++ op ↔ c.op = op ∧ c.regId = regId := by
  constructor
  · intro h
    rw [Command.op, Command.regId, h]
    exact ⟨selector_op regId op, selector_regId regId op⟩
  · rintro ⟨rfl, rfl⟩
    apply BitVec.eq_of_toNat_eq
    rw [selector_toNat, Command.op, Command.regId, BitVec.extractLsb'_toNat, BitVec.extractLsb'_toNat,
      Nat.shiftRight_zero, Nat.shiftRight_eq_div_pow]
    omega

/-- The low three bits of a selector are its op code (R64). -/
theorem sel_and_seven_eq_two_iff (c : Command) : c.sel &&& 0x007 = 0x002 ↔ c.op = 2 := by
  have hand : c.sel.toNat &&& 7 = c.sel.toNat % 8 := Nat.and_two_pow_sub_one_eq_mod c.sel.toNat 3
  simp [← BitVec.toNat_inj, Command.op, hand]

/-! ## The commands that decode -/

/-- An op code 0 is decoded in the GET column (R65). -/
theorem decode_of_op_zero {c : Command} (h : c.op.toNat = 0) : decode c = decodeGet c.regId.toNat := by
  simp [decode, h]

/-- An op code 1 is decoded in the SET column (R65). -/
theorem decode_of_op_one {c : Command} (h : c.op.toNat = 1) : decode c = decodeSet c.regId.toNat c.in0 := by
  simp [decode, h]

/-- What the GET column gives: a GET, at its own id, that uses no operand (R66, R67). -/
theorem decodeGet_ok {id : Nat} {i : Instr} (h : decodeGet id = .ok i) :
    encodeOp i = 0 ∧ id = (encodeRegId i).toNat ∧ usesIn0 i = false ∧ usesIn1 i = false := by
  unfold decodeGet at h
  split at h
  case h_11 => split at h <;> cases h
  all_goals
    cases h
    exact ⟨rfl, rfl, rfl, rfl⟩

/-- What the SET column gives: a SET, at its own id, with the first operand if it uses it (R66, R67). -/
theorem decodeSet_ok {id : Nat} {v : Word} {i : Instr} (h : decodeSet id v = .ok i) :
    encodeOp i = 1 ∧ id = (encodeRegId i).toNat ∧ (usesIn0 i = true → v = encodeIn0 i) ∧ usesIn1 i = false := by
  unfold decodeSet at h
  split at h
  case h_7 =>
    cases h
    exact ⟨rfl, rfl, nofun, rfl⟩
  case h_8 => split at h <;> cases h
  all_goals
    cases h
    exact ⟨rfl, rfl, fun _ => rfl, rfl⟩

/-- A command that decodes has the op code and the register id of its instruction, and the operands that it uses. -/
theorem decode_ok {c : Command} {i : Instr} (h : decode c = .ok i) :
    (c.op = encodeOp i ∧ c.regId = encodeRegId i) ∧
      (usesIn0 i = true → c.in0 = encodeIn0 i) ∧ (usesIn1 i = true → c.in1 = encodeIn1 i) := by
  unfold decode at h
  split at h
  case h_1 hop =>
    obtain ⟨hi, hid, h0, h1⟩ := decodeGet_ok h
    exact ⟨⟨BitVec.eq_of_toNat_eq (hi ▸ hop), BitVec.eq_of_toNat_eq hid⟩, by simp [h0], by simp [h1]⟩
  case h_2 hop =>
    obtain ⟨hi, hid, h0, h1⟩ := decodeSet_ok h
    exact ⟨⟨BitVec.eq_of_toNat_eq (hi ▸ hop), BitVec.eq_of_toNat_eq hid⟩, h0, by simp [h1]⟩
  case h_3 hop =>
    cases h
    exact ⟨⟨BitVec.eq_of_toNat_eq hop, rfl⟩, fun _ => rfl, fun _ => rfl⟩
  case h_4 => cases h

/-- Those fields and operands are all that the decoder reads. -/
theorem decode_of_fields {c : Command} {i : Instr} (hop : c.op = encodeOp i) (hid : c.regId = encodeRegId i)
    (h0 : usesIn0 i = true → c.in0 = encodeIn0 i) (h1 : usesIn1 i = true → c.in1 = encodeIn1 i) :
    decode c = .ok i := by
  unfold decode
  rw [hop, hid]
  cases i with
  | getVerify | getMaccOut | getInputLane0 | getInputLane1 | getInputLane2 | getInputLane3
  | getFilterLane0 | getFilterLane1 | getFilterLane2 | getFilterLane3 | setAdvanceWindow => rfl
  | setVerify _ | setInputNumWords _ | setInputWord _ | setFilterNumWords _ | setFilterWord _
  | setInputOffset _ =>
    rw [h0 rfl]
    rfl
  | ping _ _ _ =>
    rw [h0 rfl, h1 rfl]
    rfl

/-- The decoder, in both directions: a command decodes as `i` exactly if it has the selector of `i` and the operands that
`i` uses (R64 to R68). -/
theorem decode_eq_ok_iff (c : Command) (i : Instr) :
    decode c = .ok i ↔ c.sel = (encode i).sel ∧
      (usesIn0 i = true → c.in0 = encodeIn0 i) ∧ (usesIn1 i = true → c.in1 = encodeIn1 i) := by
  have hsel : c.sel = (encode i).sel ↔ c.op = encodeOp i ∧ c.regId = encodeRegId i :=
    sel_eq_append_iff c (encodeRegId i) (encodeOp i)
  rw [hsel]
  exact ⟨decode_ok, fun ⟨⟨hop, hid⟩, h0, h1⟩ => decode_of_fields hop hid h0 h1⟩

/-- A command that carries the operands of `i` decodes as `i` exactly if it has the selector of `i` (R77). -/
theorem decode_eq_ok_iff_sel {c : Command} {i : Instr} (regId : RegId) (op : OpCode) (hid : encodeRegId i = regId)
    (hop : encodeOp i = op) (h0 : usesIn0 i = true → c.in0 = encodeIn0 i)
    (h1 : usesIn1 i = true → c.in1 = encodeIn1 i) : decode c = .ok i ↔ c.sel = regId ++ op := by
  subst hid hop
  rw [decode_eq_ok_iff, and_iff_left ⟨h0, h1⟩, encode]

/-- A command decodes as PING with its own operands exactly if its op code is 2, and then with its own register id (R72). -/
theorem exists_decode_eq_ping_iff (c : Command) :
    (∃ r, decode c = .ok (.ping r c.in0 c.in1)) ↔ c.op = 2 := by
  constructor
  · rintro ⟨r, h⟩
    exact (decode_ok h).1.1
  · intro hop
    exact ⟨c.regId, decode_of_fields hop rfl (fun _ => rfl) (fun _ => rfl)⟩

/-- Settles O2: the rows of R77 with the register id and the op code of each; the mask of PING leaves its op code. -/
theorem selectorsOfEveryCommand : Obligations.SelectorsOfEveryCommand := by
  intro c
  exact ⟨decode_eq_ok_iff_sel 0 0 rfl rfl nofun nofun,
    decode_eq_ok_iff_sel 6 0 rfl rfl nofun nofun,
    decode_eq_ok_iff_sel 7 0 rfl rfl nofun nofun,
    decode_eq_ok_iff_sel 8 0 rfl rfl nofun nofun,
    decode_eq_ok_iff_sel 9 0 rfl rfl nofun nofun,
    decode_eq_ok_iff_sel 10 0 rfl rfl nofun nofun,
    decode_eq_ok_iff_sel 11 0 rfl rfl nofun nofun,
    decode_eq_ok_iff_sel 12 0 rfl rfl nofun nofun,
    decode_eq_ok_iff_sel 13 0 rfl rfl nofun nofun,
    decode_eq_ok_iff_sel 14 0 rfl rfl nofun nofun,
    decode_eq_ok_iff_sel 0 1 rfl rfl (fun _ => rfl) nofun,
    decode_eq_ok_iff_sel 1 1 rfl rfl (fun _ => rfl) nofun,
    decode_eq_ok_iff_sel 2 1 rfl rfl (fun _ => rfl) nofun,
    decode_eq_ok_iff_sel 3 1 rfl rfl (fun _ => rfl) nofun,
    decode_eq_ok_iff_sel 4 1 rfl rfl (fun _ => rfl) nofun,
    decode_eq_ok_iff_sel 5 1 rfl rfl (fun _ => rfl) nofun,
    decode_eq_ok_iff_sel 15 1 rfl rfl nofun nofun,
    (exists_decode_eq_ping_iff c).trans (sel_and_seven_eq_two_iff c).symm⟩

/-! ## The reserved commands -/

/-- An op code 3 to 7 is reserved (R69). -/
theorem decode_reservedOp {c : Command} (h : 3 ≤ c.op.toNat) : decode c = .error .reservedOp := by
  unfold decode
  split
  case h_4 => rfl
  all_goals omega

/-- The ids from 16 on are unmapped in the GET column (R71). -/
theorem decodeGet_unmappedId {id : Nat} (h : 16 ≤ id) : decodeGet id = .error .unmappedId := by
  unfold decodeGet
  split
  case h_11 => rw [if_pos h]
  all_goals omega

/-- The ids from 16 on are unmapped in the SET column (R71). -/
theorem decodeSet_unmappedId {id : Nat} (h : 16 ≤ id) (v : Word) : decodeSet id v = .error .unmappedId := by
  unfold decodeSet
  split
  case h_8 => rw [if_pos h]
  all_goals omega

/-- The ids 1 to 5 and 15 have no GET (R70). -/
theorem decodeGet_wrongDirection {id : Nat} (h : (1 ≤ id ∧ id ≤ 5) ∨ id = 15) :
    decodeGet id = .error .wrongDirection := by
  unfold decodeGet
  split
  case h_11 => rw [if_neg (by omega)]
  all_goals omega

/-- The ids 6 to 14 have no SET (R70). -/
theorem decodeSet_wrongDirection {id : Nat} (h6 : 6 ≤ id) (h14 : id ≤ 14) (v : Word) :
    decodeSet id v = .error .wrongDirection := by
  unfold decodeSet
  split
  case h_8 => rw [if_neg (by omega)]
  all_goals omega

end Sys2Proof

namespace Sys2Proof.Machine

/-- A step that is given a reserved command is refused by its name (R103). -/
theorem step_reserved {s : State} {r : Reserved} (hreset : (nextInput s).reset = none)
    (hvalid : (nextInput s).valid = true) (h : decode (nextInput s).cmd = .error r) :
    step s = .refused (refusalOf r) := by
  simp [step, hreset, hvalid, h]

/-- Settles O6: the decoder reads no further than a reserved op code. -/
theorem reservedOpCodesAreRefused : Obligations.ReservedOpCodesAreRefused := by
  intro s hreset hvalid hop
  exact step_reserved hreset hvalid (decode_reservedOp hop)

/-- Settles O7: a GET and a SET are each decoded in their own column, which has no command at these ids. -/
theorem wrongDirectionsAreRefused : Obligations.WrongDirectionsAreRefused := by
  rintro s hreset hvalid (⟨hop, hid⟩ | ⟨hop, h6, h14⟩)
  · exact step_reserved hreset hvalid ((decode_of_op_zero hop).trans (decodeGet_wrongDirection hid))
  · exact step_reserved hreset hvalid ((decode_of_op_one hop).trans (decodeSet_wrongDirection h6 h14 _))

/-- Settles O8: no id from 16 on is mapped in either column. -/
theorem unmappedIdsAreRefused : Obligations.UnmappedIdsAreRefused := by
  intro s hreset hvalid hop hid
  obtain hop | hop : (nextInput s).cmd.op.toNat = 0 ∨ (nextInput s).cmd.op.toNat = 1 := by omega
  · exact step_reserved hreset hvalid ((decode_of_op_zero hop).trans (decodeGet_unmappedId hid))
  · exact step_reserved hreset hvalid ((decode_of_op_one hop).trans (decodeSet_unmappedId hid _))

/-- Settles O10: the selector is that of the encoded PING, and no arm reads the register id. -/
theorem pingIgnoresTheRegisterId : Obligations.PingIgnoresTheRegisterId := by
  intro r r' a b s
  exact ⟨(decode_eq_ok_iff _ _).2 ⟨rfl, fun _ => rfl, fun _ => rfl⟩, rfl⟩

end Sys2Proof.Machine
end

section
/-! SUPPORT. The FlowRestrictor's step and runs (R81 to R97): what a step of the machine does to the credit and the gate, what a
busy and an idle gate do, the run that a release starts, and an offer that is held. -/

namespace Sys2Proof.Machine

/-! ## One step of the gate -/

/-- A step forwards exactly if the gate is busy, an element is offered and the consumer is ready (R81). -/
theorem forwards_iff (credit : Nat) (x : StepInput) :
    forwards credit x = true ↔ 0 < credit ∧ x.inAvailable = true ∧ x.outAccepted = true := by
  simp [forwards, and_assoc]

/-- A release is accepted exactly if it is requested from an idle gate (R85). -/
theorem releaseAccepted_iff (credit : Nat) (x : StepInput) :
    releaseAccepted credit x = true ↔ x.releaseValid = true ∧ credit = 0 := by
  simp [releaseAccepted, releaseReady]

/-- An idle gate forwards nothing (R89). -/
@[simp] theorem forwards_idle (x : StepInput) : forwards 0 x = false := rfl

/-- A busy gate is not ready for a release (R34). -/
theorem releaseReady_busy {credit : Nat} (h : 0 < credit) : releaseReady credit = false := by
  simp [releaseReady, h.ne']

/-- A busy gate accepts no release (R90). -/
theorem releaseAccepted_busy {credit : Nat} (h : 0 < credit) (x : StepInput) : releaseAccepted credit x = false := by
  simp [releaseAccepted, releaseReady_busy h]

/-- An accepted release loads its count (R86). -/
theorem nextCredit_accepted {credit : Nat} {x : StepInput} (h : releaseAccepted credit x = true) :
    nextCredit credit x = x.releaseCount.toNat := by
  simp [nextCredit, h]

/-- With no release accepted the credit goes down by the forward, if there is one (R87, R88). -/
theorem nextCredit_not_accepted {credit : Nat} {x : StepInput} (h : releaseAccepted credit x = false) :
    nextCredit credit x = credit - (forwards credit x).toNat := by
  cases hf : forwards credit x <;> simp [nextCredit, h, hf]

@[simp] theorem gateOutputs_inAccepted (credit steps : Nat) (x : StepInput) :
    (gateOutputs credit steps x).inAccepted = forwards credit x := rfl
@[simp] theorem gateOutputs_outAvailable (credit steps : Nat) (x : StepInput) :
    (gateOutputs credit steps x).outAvailable = forwards credit x := rfl
@[simp] theorem gateOutputs_releaseReady (credit steps : Nat) (x : StepInput) :
    (gateOutputs credit steps x).releaseReady = releaseReady credit := rfl

/-- A step with a forward lets out the payload that arrives (R82). -/
theorem outPayload_of_forwards {credit : Nat} {x : StepInput} (h : forwards credit x = true) (steps : Nat) :
    (gateOutputs credit steps x).outPayload = x.inPayload := by
  simp [gateOutputs, h]

/-- Two steps that forward the same payload let out the same payload (R82). -/
theorem outPayload_eq_of_same_forward {credit : Nat} {x y : StepInput} (hforwards : forwards credit y = forwards credit x)
    (hpayload : y.inPayload = x.inPayload) (h : forwards credit x = true) (steps : Nat) :
    (gateOutputs credit steps y).outPayload = (gateOutputs credit steps x).outPayload := by
  rw [outPayload_of_forwards h, outPayload_of_forwards (hforwards.trans h), hpayload]

/-- Settles O49: both handshakes are the forward, and a forward has its offer and its ready consumer. -/
theorem transfersCoincide : Obligations.TransfersCoincide := by
  intro credit steps x
  refine ⟨?_, ?_, fun h => outPayload_of_forwards h steps⟩
  · exact Bool.and_eq_right_iff_imp.2 inAvailable_of_forwards
  · exact Bool.and_eq_left_iff_imp.2 fun h => ((forwards_iff _ _).1 h).2.2

/-- Settles O50: a release needs an idle gate and a forward a busy one. -/
theorem creditHolds : Obligations.CreditHolds := by
  intro credit x
  constructor
  · rintro ⟨hr, hf⟩
    have hidle := ((releaseAccepted_iff _ _).1 hr).2
    have hbusy := ((forwards_iff _ _).1 hf).1
    omega
  · intro hr hf
    simp [nextCredit_not_accepted hr, hf]

/-- Settles O53: the count it loads is the credit it finds. -/
theorem releaseOfZeroIsAccepted : Obligations.ReleaseOfZeroIsAccepted := by
  intro steps x hvalid hcount
  have haccept : releaseAccepted 0 x = true := (releaseAccepted_iff 0 x).2 ⟨hvalid, rfl⟩
  have hnext : nextCredit 0 x = 0 := by simp [nextCredit_accepted haccept, hcount]
  exact ⟨haccept, hnext, forwards_idle x, rfl, by rw [hnext]; rfl⟩

/-- Settles O54: the accepting step finds credit 0, and the next one finds the count. -/
theorem acceptingStepForwardsNothing : Obligations.AcceptingStepForwardsNothing := by
  intro credit x y haccept
  obtain ⟨-, rfl⟩ := (releaseAccepted_iff _ _).1 haccept
  refine ⟨rfl, forwards_idle x, fun hcount hoffer hready => ?_⟩
  rw [nextCredit_accepted haccept]
  exact (forwards_iff _ _).2 ⟨Nat.pos_of_ne_zero hcount, hoffer, hready⟩

/-- Settles O52: with and without the request no release is accepted, so the forward, which reads no request, decides. -/
theorem busyRequestHasNoEffect : Obligations.BusyRequestHasNoEffect := by
  intro credit steps x requested count hbusy y o o'
  have hforwards : forwards credit y = forwards credit x := rfl
  have hnext : nextCredit credit y = nextCredit credit x := by
    rw [nextCredit_not_accepted (releaseAccepted_busy hbusy y), nextCredit_not_accepted (releaseAccepted_busy hbusy x),
      hforwards]
  exact ⟨releaseAccepted_busy hbusy y, releaseReady_busy hbusy, hnext, hforwards, hforwards, rfl,
    fun hf => outPayload_eq_of_same_forward hforwards rfl hf steps⟩

/-- Settles O59: neither the acceptance nor the forward reads the count, and without an acceptance the forward alone moves the
credit. -/
theorem countIsReadOnlyOnAcceptance : Obligations.CountIsReadOnlyOnAcceptance := by
  intro credit steps x count y o o'
  have hforwards : forwards credit y = forwards credit x := rfl
  have haccepted : releaseAccepted credit y = releaseAccepted credit x := rfl
  refine ⟨haccepted, fun hr => ?_, hforwards, hforwards, rfl,
    fun hf => outPayload_eq_of_same_forward hforwards rfl hf steps⟩
  rw [nextCredit_not_accepted hr, nextCredit_not_accepted (haccepted.trans hr), hforwards]

/-! ## The gate in a step of the machine -/

/-- No command drives the FlowRestrictor's outputs (R141). -/
theorem exec_gate {i : Instr} {s t : State} (h : exec i s = .next t) : t.gate = s.gate := by
  cases i with
  | setInputNumWords v => simp [(configureStore_next (id := .input) h).2]
  | setFilterNumWords v => simp [(configureStore_next (id := .filter) h).2]
  | getVerify | getMaccOut | getInputLane0 | getInputLane1 | getInputLane2 | getInputLane3
  | getFilterLane0 | getFilterLane1 | getFilterLane2 | getFilterLane3
  | setVerify _ | setInputWord _ | setFilterWord _ | setInputOffset _ | setAdvanceWindow | ping _ _ _ =>
    cases h
    rfl

/-- A step that is no reset event is a step of the FlowRestrictor, idle or whatever command is beside it (R97, R107). -/
theorem step_gate {s t : State} (hreset : (nextInput s).reset = none) (h : step s = .next t) :
    t.credit = nextCredit s.credit (nextInput s) ∧
      t.gate = some (gateOutputs s.credit (s.steps + 1) (nextInput s)) := by
  rcases step_cases s with ⟨scope, hscope, -⟩ | ⟨-, -, hidle⟩ | ⟨i, -, -, -, hexec⟩ | ⟨r, -, -, -, hrefused⟩
  · cases hscope.symm.trans hreset
  · cases hidle.symm.trans h
    exact ⟨rfl, rfl⟩
  · exact ⟨exec_credit (hexec.symm.trans h), exec_gate (hexec.symm.trans h)⟩
  · cases hrefused.symm.trans h

/-- A reset event moves the credit by its scope: 0 if it resets the FlowRestrictor (R155). -/
theorem resetEvent_credit {s : State} {x : StepInput} {scope : ResetScope} (h : x.reset = some scope) :
    (resetEvent scope s).credit = creditAfter s.credit x := by
  cases scope <;> simp [creditAfter, resetEvent, h]

/-- Settles O48: the credit and the outputs are those of `nextCredit` and `gateOutputs`. -/
theorem stepTakesTheRestrictorStep : Obligations.StepTakesTheRestrictorStep := by
  intro s t hreset h
  obtain ⟨hcredit, hgate⟩ := step_gate hreset h
  exact ⟨hcredit, _, hgate, fun hf => outPayload_of_forwards hf _⟩

/-- Settles O58: an entry is a step of the FlowRestrictor or a reset event. -/
theorem everyEntryMovesTheCredit : Obligations.EveryEntryMovesTheCredit := by
  intro s t h
  rcases step_cases s with ⟨scope, hscope, hnext⟩ | ⟨hreset, -⟩ | ⟨i, hreset, -⟩ | ⟨r, hreset, -⟩
  · cases hnext.symm.trans h
    exact resetEvent_credit hscope
  all_goals
    rw [creditAfter_step _ _ hreset]
    exact (step_gate hreset h).1

/-! ## Runs of the gate -/

/-- A run with one more step: the step begins with the credit that the run leaves. -/
theorem runRestrictor_concat (credit steps : Nat) (xs : List StepInput) (y : StepInput) :
    runRestrictor credit steps (xs ++ [y]) =
      (nextCredit (runRestrictor credit steps xs).1 y,
        (runRestrictor credit steps xs).2 ++ [gateOutputs (runRestrictor credit steps xs).1 (steps + xs.length) y]) := by
  induction xs generalizing credit steps with
  | nil => rfl
  | cons x xs ih => simp [runRestrictor, ih, Nat.add_assoc, Nat.add_comm 1]

/-- The forwards of steps one after the other add up. -/
theorem forwardCount_append (os os' : List GateOutputs) :
    forwardCount (os ++ os') = forwardCount os + forwardCount os' := List.countP_append

/-- A single step counts as its forward (R83). -/
theorem forwardCount_gateOutputs (credit steps : Nat) (x : StepInput) :
    forwardCount [gateOutputs credit steps x] = (forwards credit x).toNat := by
  cases hf : forwards credit x <;> simp [forwardCount, hf]

/-- Settles O51, by induction on the steps: each one without a release begins and ends with credit 0. -/
theorem idleGateBlocksForEver : Obligations.IdleGateBlocksForEver := by
  refine ⟨fun steps x => ⟨rfl, rfl⟩, fun steps xs hquiet => ?_⟩
  induction xs generalizing steps with
  | nil => exact ⟨rfl, nofun⟩
  | cons x xs ih =>
    obtain ⟨hx, hxs⟩ := List.forall_mem_cons.1 hquiet
    have hreleased : releaseAccepted 0 x = false := by simp [releaseAccepted, hx]
    have hnext : nextCredit 0 x = 0 := by rw [nextCredit_not_accepted hreleased, Nat.zero_sub]
    simp only [runRestrictor, hnext]
    obtain ⟨hcredit, houts⟩ := ih (steps + 1) hxs
    exact ⟨hcredit, List.forall_mem_cons.2 ⟨⟨rfl, rfl, rfl⟩, houts⟩⟩

/-- The outcome of a run that began with `credit` and accepted no release in it: every step was busy, and the credit at its
end is what the forwards left (R87, R90, R93). -/
def SpendsCredit (credit : Nat) (run : Nat × List GateOutputs) : Prop :=
  (∀ o ∈ run.2, o.releaseReady = false) ∧ run.1 = credit - forwardCount run.2

/-- A run that has credit left spends it on in one more step, be it the last of the credit. -/
theorem SpendsCredit.concat {credit steps : Nat} {xs : List StepInput}
    (h : SpendsCredit credit (runRestrictor credit steps xs))
    (hleft : forwardCount (runRestrictor credit steps xs).2 < credit) (y : StepInput) :
    SpendsCredit credit (runRestrictor credit steps (xs ++ [y])) := by
  obtain ⟨hready, hcredit⟩ := h
  have hbusy : 0 < (runRestrictor credit steps xs).1 := by omega
  rw [runRestrictor_concat]
  constructor
  · exact List.forall_mem_append.2 ⟨hready, List.forall_mem_singleton.2 (releaseReady_busy hbusy)⟩
  · rw [forwardCount_append, forwardCount_gateOutputs, nextCredit_not_accepted (releaseAccepted_busy hbusy y), hcredit,
      Nat.sub_sub]

/-- A run with fewer forwards than its first credit has accepted no release, by induction on its last step. -/
theorem spendsCredit_of_forwardCount_lt {credit steps : Nat} (xs : List StepInput)
    (h : forwardCount (runRestrictor credit steps xs).2 < credit) :
    SpendsCredit credit (runRestrictor credit steps xs) := by
  induction xs using List.reverseRecOn with
  | nil => exact ⟨nofun, rfl⟩
  | append_singleton xs y ih =>
    have hleft : forwardCount (runRestrictor credit steps xs).2 < credit := by
      rw [runRestrictor_concat, forwardCount_append] at h
      omega
    exact (ih hleft).concat hleft y

/-- Settles O55: the run after the acceptance begins with the count as its credit and spends it, the last of it in the step of
the last forward. -/
theorem releaseForwardsExactlyItsCount : Obligations.ReleaseForwardsExactlyItsCount := by
  intro steps x xs haccept _ run
  simp only [run, nextCredit_accepted haccept]
  refine ⟨spendsCredit_of_forwardCount_lt xs, fun y hbefore hall => ?_⟩
  have hleft : forwardCount (runRestrictor x.releaseCount.toNat steps xs).2 < x.releaseCount.toNat := by omega
  obtain ⟨hready, hcredit⟩ := (spendsCredit_of_forwardCount_lt xs hleft).concat hleft y
  rw [hall, Nat.sub_self] at hcredit
  exact ⟨hready, hcredit, by rw [hcredit]; rfl⟩

/-! ## An offer that is held -/

/-- A step that offers an element and does not transfer it leaves its offer held (R94). -/
theorem heldOffer_stalled {credit : Nat} {held : Option (BitVec Config.payloadWidth)} {x : StepInput}
    (hreset : x.reset = none) (hstalled : (x.inAvailable && !forwards credit x) = true) :
    heldOffer credit held x = some x.inPayload := by
  rw [heldOffer_step _ _ _ hreset, if_pos hstalled]

/-- An entry that stalls a held offer, be it a step or a reset event, leaves the same offer held if the producer keeps its
duty (R95, R153). -/
theorem heldOffer_kept {credit : Nat} {p : BitVec Config.payloadWidth} {x : StepInput}
    (hstalled : (x.reset.isSome || (x.inAvailable && !forwards credit x)) = true)
    (hkept : offerKept (some p) x = true) : heldOffer credit (some p) x = some p := by
  cases hreset : x.reset with
  | some scope => exact (heldOffer_reset credit (some p) x scope hreset).1
  | none =>
    rw [hreset, Option.isSome_none, Bool.false_or] at hstalled
    rw [heldOffer_stalled hreset hstalled]
    exact congrArg some ((offerKept_step p x hreset).1 hkept (Bool.and_eq_true_iff.1 hstalled).1)

/-- After entries that stall a held offer, the next step that offers an element offers the held payload, by induction on the
entries. -/
theorem inPayload_of_heldOffer {credit : Nat} {p : BitVec Config.payloadWidth} {xs : List StepInput} {y : StepInput}
    (hstalled : offersStalled credit xs = true) (hduty : producerStableFrom credit (some p) (xs ++ [y]) = true)
    (hreset : y.reset = none) (hoffer : y.inAvailable = true) : y.inPayload = p := by
  induction xs generalizing credit with
  | nil =>
    simp only [List.nil_append, producerStableFrom, Bool.and_true] at hduty
    exact (offerKept_step p y hreset).1 hduty hoffer
  | cons x xs ih =>
    simp only [offersStalled, Bool.and_eq_true] at hstalled
    simp only [List.cons_append, producerStableFrom, Bool.and_eq_true] at hduty
    obtain ⟨hx, hxs⟩ := hstalled
    obtain ⟨hkept, hrest⟩ := hduty
    rw [heldOffer_kept (by simpa using hx) hkept] at hrest
    exact ih hxs hrest

/-- Settles O60: the first step leaves its own offer held, and the forward lets out what is then offered. -/
theorem heldOfferLeavesUnchanged : Obligations.HeldOfferLeavesUnchanged := by
  intro credit steps x y xs hx hy hstalled hduty hforward
  rw [outPayload_of_forwards hforward]
  simp only [offersStalled, hx, Option.isSome_none, Bool.false_or, Bool.and_eq_true] at hstalled
  simp only [producerStable, List.cons_append, producerStableFrom, Bool.and_eq_true] at hduty
  obtain ⟨hfirst, hothers⟩ := hstalled
  obtain ⟨-, hrest⟩ := hduty
  rw [heldOffer_stalled hx (by simpa using hfirst)] at hrest
  exact inPayload_of_heldOffer hothers hrest hy (inAvailable_of_forwards hforward)

end Sys2Proof.Machine
end

section
/-! SUPPORT. The CommandProcessor's part of a step (R98, R102, R105): the command it runs, the state an idle step keeps, and
the writers of the latch. -/

namespace Sys2Proof.Machine

/-- Settles O11: of the cases of a step, only the one that runs the decoded command fits its premises. -/
theorem stepRunsTheDecodedCommand : Obligations.StepRunsTheDecodedCommand := by
  intro s i hreset hvalid hdecode
  rcases step_cases s with ⟨scope, hscope, -⟩ | ⟨-, hidle, -⟩ | ⟨j, -, -, hj, hexec⟩ | ⟨r, -, -, hr, -⟩
  · cases hscope.symm.trans hreset
  · cases hidle.symm.trans hvalid
  · cases hj.symm.trans hdecode
    exact hexec
  · cases hr.symm.trans hdecode

/-- A step without a command is the idle step beside the FlowRestrictor's (R102). -/
theorem step_idle {s : State} (hreset : (nextInput s).reset = none) (hvalid : (nextInput s).valid = false) :
    step s = .next (idleCommand (restrictorStep (nextInput s) (takeInput s))) := by
  simp [step, hreset, hvalid]

/-- Settles O12: taking the entry, the FlowRestrictor's step and the idle command each leave these fields. -/
theorem idleStepKeepsTheProcessor : Obligations.IdleStepKeepsTheProcessor := by
  intro s hreset hvalid
  exact ⟨_, step_idle hreset hvalid, rfl, rfl, rfl, rfl, rfl, rfl⟩

/-- A PING has op code 2 (R65). -/
theorem encodeOp_of_isPing {i : Instr} (h : isPing i = true) : encodeOp i = 2 := by
  cases i with
  | ping _ _ _ => rfl
  | getVerify | getMaccOut | getInputLane0 | getInputLane1 | getInputLane2 | getInputLane3
  | getFilterLane0 | getFilterLane1 | getFilterLane2 | getFilterLane3
  | setVerify _ | setInputNumWords _ | setInputWord _ | setFilterNumWords _ | setFilterWord _
  | setInputOffset _ | setAdvanceWindow => cases h

/-- A command that is no PING leaves the latch (R105, R137). -/
theorem exec_maccLatch {i : Instr} {s t : State} (hping : isPing i = false) (h : exec i s = .next t) :
    t.maccLatch = s.maccLatch := by
  cases i with
  | ping _ _ _ => cases hping
  | setInputNumWords v => simp [(configureStore_next (id := .input) h).2]
  | setFilterNumWords v => simp [(configureStore_next (id := .filter) h).2]
  | getVerify | getMaccOut | getInputLane0 | getInputLane1 | getInputLane2 | getInputLane3
  | getFilterLane0 | getFilterLane1 | getFilterLane2 | getFilterLane3
  | setVerify _ | setInputWord _ | setFilterWord _ | setInputOffset _ | setAdvanceWindow =>
    cases h
    rfl

/-- Settles O39: a reset of the FlowRestrictor and an idle step keep the latch, and of the commands only a PING writes it. -/
theorem onlyPingOrResetWritesTheLatch : Obligations.OnlyPingOrResetWritesTheLatch := by
  intro s t h hlatch
  rcases step_cases s with ⟨scope, hscope, hnext⟩ | ⟨-, -, hidle⟩ | ⟨i, hreset, hvalid, hdecode, hexec⟩ |
    ⟨r, -, -, -, hrefused⟩
  · cases hnext.symm.trans h
    cases scope with
    | core => exact .inl hscope
    | processor => exact .inr (.inl hscope)
    | restrictor => exact absurd rfl hlatch
  · cases hidle.symm.trans h
    exact absurd rfl hlatch
  · rw [hexec] at h
    have hping : isPing i = true := Bool.eq_true_of_not_eq_false fun hother => hlatch (exec_maccLatch hother h :)
    obtain ⟨⟨hop, -⟩, -⟩ := decode_ok hdecode
    exact .inr (.inr ⟨hreset, hvalid, hop.trans (encodeOp_of_isPing hping)⟩)
  · cases hrefused.symm.trans h

end Sys2Proof.Machine
end

section
/-! SUPPORT. The diagnostic registers (R108 to R112): what a command does to VERIFY and to PINGSUM, said once for every command
and then for every run, and the commands that are never refused. -/

namespace Sys2Proof.Machine

/-! ## One command -/

/-- A sum of words is the sum of their values, wrapped (R14). -/
theorem addWords_eq_ofNat (a b : Word) : addWords a b = BitVec.ofNat 32 (a.toNat + b.toNat) := by
  rw [addWords_eq, BitVec.ofNat_add, BitVec.ofNat_toNat, BitVec.ofNat_toNat, BitVec.setWidth_eq, BitVec.setWidth_eq]

/-- Every command adds its addend to VERIFY, which is 0 for all but SET(VERIFY) (R108, R23). -/
theorem exec_verify {i : Instr} {s t : State} (h : exec i s = .next t) : t.verify = s.verify + verifyAddend i := by
  cases i with
  | setVerify v =>
    cases h
    exact addWords_eq s.verify v
  | setInputNumWords v => simp [(configureStore_next (id := .input) h).2, verifyAddend]
  | setFilterNumWords v => simp [(configureStore_next (id := .filter) h).2, verifyAddend]
  | getVerify | getMaccOut | getInputLane0 | getInputLane1 | getInputLane2 | getInputLane3
  | getFilterLane0 | getFilterLane1 | getFilterLane2 | getFilterLane3
  | setInputWord _ | setFilterWord _ | setInputOffset _ | setAdvanceWindow | ping _ _ _ =>
    cases h
    exact (BitVec.add_zero _).symm

/-- A PING stores the sum of its operands in PINGSUM, and every other command leaves it (R110, R24). -/
theorem exec_pingSum {i : Instr} {s t : State} (h : exec i s = .next t) : t.pingSum = echoAfter s.pingSum i := by
  cases i with
  | ping _ a b =>
    cases h
    exact addWords_eq_ofNat a b
  | setInputNumWords v => simp [(configureStore_next (id := .input) h).2, echoAfter, isPing]
  | setFilterNumWords v => simp [(configureStore_next (id := .filter) h).2, echoAfter, isPing]
  | getVerify | getMaccOut | getInputLane0 | getInputLane1 | getInputLane2 | getInputLane3
  | getFilterLane0 | getFilterLane1 | getFilterLane2 | getFilterLane3
  | setVerify _ | setInputWord _ | setFilterWord _ | setInputOffset _ | setAdvanceWindow =>
    cases h
    rfl

/-- A command is refused only as a SET(*_NUM_WORDS) (R113, R114, R138). -/
theorem exec_answers_or_configures (i : Instr) (s : State) :
    (∃ t, exec i s = .next t) ∨ ∃ id v, i = configureCommand id v := by
  cases i with
  | setInputNumWords v => exact .inr ⟨.input, v, rfl⟩
  | setFilterNumWords v => exact .inr ⟨.filter, v, rfl⟩
  | getVerify | getMaccOut | getInputLane0 | getInputLane1 | getInputLane2 | getInputLane3
  | getFilterLane0 | getFilterLane1 | getFilterLane2 | getFilterLane3
  | setVerify _ | setInputWord _ | setFilterWord _ | setInputOffset _ | setAdvanceWindow | ping _ _ _ =>
    exact .inl ⟨_, rfl⟩

/-- SET(VERIFY), every GET and PING always answer a next state. -/
theorem exec_answers_of_diagnostic {i : Instr} (h : isSetVerify i = true ∨ isGet i = true ∨ isPing i = true) (s : State) :
    ∃ t, exec i s = .next t := by
  rcases exec_answers_or_configures i s with hnext | ⟨id, v, rfl⟩
  · exact hnext
  · cases id <;> simp [configureCommand, isSetVerify, isGet, isPing] at h

/-! ## A run of commands -/

/-- A run answers a next state exactly if its first command does and the others do from there (R56). -/
theorem runCommands_cons (i : Instr) (is : List Instr) (s u : State) :
    runCommands (i :: is) s = .next u ↔ ∃ t, exec i s = .next t ∧ runCommands is t = .next u := by
  rw [runCommands]
  cases exec i s <;> simp

/-- Commands that always answer a next state do so in a run. -/
theorem runCommands_answers {is : List Instr} (h : ∀ i ∈ is, ∀ s, ∃ t, exec i s = .next t) (s : State) :
    ∃ u, runCommands is s = .next u := by
  induction is generalizing s with
  | nil => exact ⟨s, rfl⟩
  | cons i is ih =>
    obtain ⟨hi, his⟩ := List.forall_mem_cons.1 h
    obtain ⟨t, ht⟩ := hi s
    obtain ⟨u, hu⟩ := ih his t
    exact ⟨u, (runCommands_cons i is s u).2 ⟨t, ht, hu⟩⟩

/-- What every command does to a value read from the state, a run does to it once per command. -/
theorem runCommands_foldl {α : Type} {read : State → α} {update : α → Instr → α}
    (hexec : ∀ {i s t}, exec i s = .next t → read t = update (read s) i) {is : List Instr} {s u : State}
    (h : runCommands is s = .next u) : read u = is.foldl update (read s) := by
  induction is generalizing s with
  | nil =>
    cases h
    rfl
  | cons i is ih =>
    obtain ⟨t, ht, hu⟩ := (runCommands_cons i is s u).1 h
    rw [List.foldl_cons, ← hexec ht, ih hu]

/-- Adding the addends one after the other adds their sum, wrapped (R111). -/
theorem foldl_add_verifyAddend (w : Word) (is : List Instr) :
    is.foldl (fun w i => w + verifyAddend i) w = w + BitVec.ofNat 32 (is.map fun i => (verifyAddend i).toNat).sum := by
  induction is generalizing w with
  | nil => simp
  | cons i is ih => simp [ih, BitVec.ofNat_add, BitVec.add_assoc]

/-- A run adds to VERIFY the addends of its commands (R111). -/
theorem runCommands_verify {is : List Instr} {s u : State} (h : runCommands is s = .next u) :
    u.verify = s.verify + BitVec.ofNat 32 (is.map fun i => (verifyAddend i).toNat).sum :=
  (runCommands_foldl exec_verify h).trans (foldl_add_verifyAddend s.verify is)

/-- A run leaves in PINGSUM the sum that its last PING stored (R112). -/
theorem runCommands_pingSum {is : List Instr} {s u : State} (h : runCommands is s = .next u) :
    u.pingSum = is.foldl echoAfter s.pingSum :=
  runCommands_foldl exec_pingSum h

/-! ## The obligations -/

/-- Settles O20: none of these commands is refused, and GET(VERIFY) reads what the run has added to the 1 of reset. -/
theorem verifyAccumulationLaw : Obligations.VerifyAccumulationLaw := by
  intro is hcommands
  obtain ⟨s, hs⟩ := runCommands_answers (fun i hi => exec_answers_of_diagnostic (hcommands i hi)) State.reset
  refine ⟨driveResult s s.verify, (runCommands_append _ _ _ _).2 ⟨s, hs, rfl⟩, ?_⟩
  rw [driveResult_result, runCommands_verify hs, BitVec.ofNat_add]
  rfl

/-- Settles O21: a PING returns PINGSUM as the run before it left it. -/
theorem pingDelayLaw : Obligations.PingDelayLaw := by
  intro is s r a b hs
  exact ⟨_, rfl, congrArg some (runCommands_pingSum hs)⟩

/-- Settles O17: the sum of SET(VERIFY) is the wrapped sum of the values. -/
theorem setVerifyAccumulates : Obligations.SetVerifyAccumulates := by
  intro v x s
  refine ⟨Iff.mpr (decode_eq_ok_iff_sel 0 1 rfl rfl (fun _ => rfl) nofun) rfl, s.epoch + 1, ?_⟩
  rw [← addWords_eq_ofNat]
  rfl

/-- Settles O18: GET(VERIFY) drives the result and nothing else. -/
theorem getVerifyReturnsVerify : Obligations.GetVerifyReturnsVerify := by
  intro x y s
  exact ⟨Iff.mpr (decode_eq_ok_iff_sel 0 0 rfl rfl nofun nofun) rfl, rfl⟩

/-- Settles O19: each of these selectors has the op code of PING, whose arm reads the state at the start alone. -/
theorem pingEchoesAndTicks : Obligations.PingEchoesAndTicks := by
  intro sel a b s hsel
  obtain ⟨r, hr⟩ := (exists_decode_eq_ping_iff ⟨sel, a, b⟩).2 ((sel_and_seven_eq_two_iff ⟨sel, a, b⟩).1 hsel)
  refine ⟨r, s.epoch + 1, hr, ?_⟩
  rw [← addWords_eq_ofNat]
  rfl

end Sys2Proof.Machine
end

section
/-! SUPPORT. The windowed stores (R113 to R128): what one command of a store does, said once for either store, then what runs of
appends and of advances leave in it. -/

namespace Sys2Proof.Machine

/-! ## One command -/

/-- SET(*_NUM_WORDS) within the capacity configures its store (R113, R114). -/
theorem configureStore_of_le {v : Word} (h : v.toNat ≤ Config.storeCapacity) (id : StoreId) (s : State) :
    configureStore id v s = .next (completeSet (s.setStore id ((s.store id).configured v.toNat))) := by
  rcases configureStore_cases id v s with ⟨hlarge, -⟩ | ⟨-, hnext⟩
  · omega
  · exact hnext

/-- SET(*_NUM_WORDS) above the capacity is refused (R113, R114). -/
theorem configureStore_of_lt {v : Word} (h : Config.storeCapacity < v.toNat) (id : StoreId) (s : State) :
    configureStore id v s = .refused .capacityExceeded := by
  rcases configureStore_cases id v s with ⟨-, hrefused⟩ | ⟨hfits, -⟩
  · exact hrefused
  · omega

/-- An append declares no words (R115). -/
@[simp] theorem appended_n (st : Store) (v : Word) : (st.appended v).n = st.n := by
  rcases Nat.eq_zero_or_pos st.n with hn | hn
  · rw [appended_empty st v hn]
  · rw [appended_nonempty st v hn]

/-- An append does not move the window (R115). -/
@[simp] theorem appended_windowBase (st : Store) (v : Word) : (st.appended v).windowBase = st.windowBase := by
  rcases Nat.eq_zero_or_pos st.n with hn | hn
  · rw [appended_empty st v hn]
  · rw [appended_nonempty st v hn]

/-- An append to a store with words moves the write pointer on (R115). -/
theorem appended_writePos {st : Store} (hn : 0 < st.n) (v : Word) :
    (st.appended v).writePos = (st.writePos + 1) % st.n := by
  rw [appended_nonempty st v hn]

/-- An append to a store with words stores its word at the write pointer (R115). -/
theorem read_appended_writePos {st : Store} (hn : 0 < st.n) (v : Word) :
    Memory.read (st.appended v).buf st.writePos = some v := by
  rw [appended_nonempty st v hn]
  exact read_write_same _ _ _

/-- An append to a store with words marks the word at the write pointer written (R115, R47). -/
theorem mem_appended_written {st : Store} (hn : 0 < st.n) (v : Word) (i : Nat) :
    i ∈ (st.appended v).written ↔ i = st.writePos ∨ i ∈ st.written := by
  rw [appended_nonempty st v hn]
  exact mem_markWritten _ _ _

/-- Every field of a store with words after an append (R115, R116). -/
theorem appended_fields {st : Store} (hn : 0 < st.n) (v : Word) :
    (st.appended v).n = st.n ∧ (st.appended v).windowBase = st.windowBase ∧
    (st.appended v).writePos = (st.writePos + 1) % st.n ∧
    Memory.read (st.appended v).buf st.writePos = some v ∧
    (∀ i, i ≠ st.writePos → Memory.read (st.appended v).buf i = Memory.read st.buf i) ∧
    (∀ i, i ∈ (st.appended v).written ↔ i = st.writePos ∨ i ∈ st.written) :=
  ⟨appended_n st v, appended_windowBase st v, appended_writePos hn v, read_appended_writePos hn v,
    fun _ hi => read_appended_other (.inr hi) v, mem_appended_written hn v⟩

/-- An advance, for a store with words or without (R125). -/
theorem advanced_eq (st : Store) :
    st.advanced = { st with windowBase := if st.n = 0 then st.windowBase else (st.windowBase + 4) % st.n } := by
  rcases Nat.eq_zero_or_pos st.n with hn | hn
  · rw [advanced_empty st hn, if_pos hn]
  · rw [advanced_nonempty st hn, if_neg hn.ne']

/-- A readback returns the word the spec fixes, or some word where it fixes none, and changes nothing (R117 to R124). -/
theorem readWindow_returns (id : StoreId) (j : Nat) (s : State) :
    ∃ w, readWindow id j s = .next { s with result := some w } ∧ ∀ u, windowWordKnown (s.store id) j u → w = u :=
  ⟨_, readWindow_eq id j s, fun _ hu => winWord_of_windowWordKnown hu _ _⟩

/-! ## The commands of either store -/

/-- The arm of SET(*_NUM_WORDS) for the store it names. -/
theorem exec_configureCommand (id : StoreId) (v : Word) (s : State) :
    exec (configureCommand id v) s = configureStore id v s := by
  cases id <;> rfl

/-- The arm of SET(*_WORD) for the store it names. -/
theorem exec_appendCommand (id : StoreId) (v : Word) (s : State) :
    exec (appendCommand id v) s = appendWord id v s := by
  cases id <;> rfl

/-- The arm of GET(*_LANE_j) for the store and the window word it names. -/
theorem exec_readbackCommand (id : StoreId) (j : Fin 4) (s : State) :
    exec (readbackCommand id j) s = readWindow id j.val s := by
  cases id <;> fin_cases j <;> rfl

/-- The arm of SET(ADVANCE_WINDOW) advances either store. -/
theorem exec_setAdvanceWindow_store (id : StoreId) (s : State) :
    ∃ t, exec .setAdvanceWindow s = .next t ∧ t.store id = (s.store id).advanced := by
  cases id <;> exact ⟨_, rfl, rfl⟩

/-! ## Runs of appends -/

section
variable {st : Store} {vs : List Word}

/-- Appends declare no words (R115). -/
@[simp] theorem foldl_appended_n : (vs.foldl Store.appended st).n = st.n := by
  induction vs generalizing st with
  | nil => rfl
  | cons v vs ih => simp [ih]

/-- Appends do not move the window (R115). -/
@[simp] theorem foldl_appended_windowBase : (vs.foldl Store.appended st).windowBase = st.windowBase := by
  induction vs generalizing st with
  | nil => rfl
  | cons v vs ih => simp [ih]

/-- From word 0 on, the write pointer counts the appends modulo the word count (R115). -/
theorem foldl_appended_writePos (hpos : st.writePos = 0) (hfits : vs.length ≤ st.n) :
    (vs.foldl Store.appended st).writePos = vs.length % st.n := by
  induction vs using List.reverseRecOn with
  | nil => simp [hpos]
  | append_singleton vs v ih =>
    simp only [List.length_append, List.length_singleton] at hfits ⊢
    have hn : 0 < (vs.foldl Store.appended st).n := by rw [foldl_appended_n]; omega
    rw [List.foldl_concat, appended_writePos hn, foldl_appended_n, ih (by omega), Nat.mod_add_mod]

/-- Before the store is full, the write pointer is the number of appends (R115). -/
theorem foldl_appended_writePos_of_lt (hpos : st.writePos = 0) (hroom : vs.length < st.n) :
    (vs.foldl Store.appended st).writePos = vs.length := by
  rw [foldl_appended_writePos hpos hroom.le, Nat.mod_eq_of_lt hroom]

/-- From word 0 on, append number `i` stores word `i`, and the words past the last append stay (R115). -/
theorem read_foldl_appended (hpos : st.writePos = 0) (hfits : vs.length ≤ st.n) (i : Nat) :
    Memory.read (vs.foldl Store.appended st).buf i = vs[i]?.or (Memory.read st.buf i) := by
  induction vs using List.reverseRecOn with
  | nil => rfl
  | append_singleton vs v ih =>
    simp only [List.length_append, List.length_singleton] at hfits
    have hn : 0 < (vs.foldl Store.appended st).n := by rw [foldl_appended_n]; omega
    have hlast : (vs.foldl Store.appended st).writePos = vs.length := foldl_appended_writePos_of_lt hpos hfits
    rw [List.foldl_concat]
    by_cases hi : i = vs.length
    · rw [hi, ← hlast, read_appended_writePos hn, hlast, List.getElem?_concat_length, Option.some_or]
    · have hold : (vs ++ [v])[i]? = vs[i]? := by grind
      rw [read_appended_other (.inr (hlast ▸ hi)), ih (by omega), hold]

/-- From word 0 on, appends mark as many words as there are appends (R115). -/
theorem mem_foldl_appended_written (hpos : st.writePos = 0) (hfits : vs.length ≤ st.n) (i : Nat) :
    i ∈ (vs.foldl Store.appended st).written ↔ i < vs.length ∨ i ∈ st.written := by
  induction vs using List.reverseRecOn with
  | nil => simp
  | append_singleton vs v ih =>
    simp only [List.length_append, List.length_singleton] at hfits ⊢
    have hn : 0 < (vs.foldl Store.appended st).n := by rw [foldl_appended_n]; omega
    rw [List.foldl_concat, mem_appended_written hn, foldl_appended_writePos_of_lt hpos hfits, ih (by omega),
      Nat.lt_succ_iff_lt_or_eq, or_assoc, or_left_comm]

end

/-! ## Runs of advances -/

/-- `k` advances move the window by `4k` modulo the word count and change nothing else (R125). -/
theorem iterate_advanced {st : Store} (hbase : st.windowBase < st.n) (k : Nat) :
    Store.advanced^[k] st = { st with windowBase := (st.windowBase + 4 * k) % st.n } := by
  induction k with
  | zero => simp [Nat.mod_eq_of_lt hbase]
  | succ k ih =>
    calc Store.advanced^[k + 1] st
      _ = Store.advanced { st with windowBase := (st.windowBase + 4 * k) % st.n } := by
        rw [Function.iterate_succ_apply', ih]
      _ = { st with windowBase := ((st.windowBase + 4 * k) % st.n + 4) % st.n } :=
        advanced_nonempty _ (Nat.zero_lt_of_lt hbase)
      _ = { st with windowBase := (st.windowBase + 4 * (k + 1)) % st.n } := by
        rw [Nat.mod_add_mod, Nat.add_assoc, ← Nat.mul_succ]

/-! ## The runs as commands -/

/-- Commands that each answer and update a store fold their updates over it in a run. -/
theorem runCommands_map_store {α : Type} {command : α → Instr} {id : StoreId} {update : Store → α → Store}
    (hexec : ∀ a s, ∃ t, exec (command a) s = .next t ∧ t.store id = update (s.store id) a) (as : List α) (s : State) :
    ∃ t, runCommands (as.map command) s = .next t ∧ t.store id = as.foldl update (s.store id) := by
  induction as generalizing s with
  | nil => exact ⟨s, rfl, rfl⟩
  | cons a as ih =>
    obtain ⟨t, ht, hstore⟩ := hexec a s
    obtain ⟨u, hu, hrest⟩ := ih t
    exact ⟨u, (runCommands_cons _ _ s u).2 ⟨t, ht, hu⟩, by rw [hrest, hstore, List.foldl_cons]⟩

/-- A run of SET(*_WORD) (R115, R116). -/
theorem runCommands_appends (id : StoreId) (ws : List Word) (s : State) :
    ∃ t, runCommands (ws.map (appendCommand id)) s = .next t ∧ t.store id = ws.foldl Store.appended (s.store id) :=
  runCommands_map_store (fun v s => ⟨_, (exec_appendCommand id v s).trans (appendWord_eq id v s), by simp⟩) ws s

/-- A run of SET(ADVANCE_WINDOW) (R125). -/
theorem runCommands_advances (id : StoreId) (k : Nat) (s : State) :
    ∃ t, runCommands (List.replicate k .setAdvanceWindow) s = .next t ∧
      t.store id = Store.advanced^[k] (s.store id) := by
  obtain ⟨t, ht, hstore⟩ := runCommands_map_store (id := id) (update := fun st (_ : Unit) => st.advanced)
    (fun _ s => exec_setAdvanceWindow_store id s) (List.replicate k ()) s
  exact ⟨t, by simpa using ht, by simpa [List.foldl_const] using hstore⟩

/-- A configuration for the words `ws`, then their appends (R127, R128). -/
theorem runCommands_load (id : StoreId) {ws : List Word} (hcapacity : ws.length ≤ Config.storeCapacity)
    (hword : ws.length < 2 ^ 32) (s : State) :
    ∃ t, runCommands (configureCommand id (BitVec.ofNat 32 ws.length) :: ws.map (appendCommand id)) s = .next t ∧
      t.store id = ws.foldl Store.appended ((s.store id).configured ws.length) := by
  have hlength : (BitVec.ofNat 32 ws.length).toNat = ws.length := (BitVec.toNat_ofNat _ _).trans (Nat.mod_eq_of_lt hword)
  have hconfigure := configureStore_of_le (hlength.trans_le hcapacity) id s
  obtain ⟨t, ht, hstore⟩ := runCommands_appends id ws (completeSet (s.setStore id ((s.store id).configured ws.length)))
  rw [hlength, ← exec_configureCommand] at hconfigure
  exact ⟨t, (runCommands_cons _ _ s t).2 ⟨_, hconfigure, ht⟩, by simpa using hstore⟩

/-! ## Loaded stores -/

/-- A load from word 0 that is as long as the store brings the write pointer back to 0 (R115). -/
theorem loaded_writePos (st : Store) (ws : List Word) :
    (ws.foldl Store.appended (st.configured ws.length)).writePos = 0 :=
  (foldl_appended_writePos rfl le_rfl).trans (Nat.mod_self _)

/-- Window word `j` of a store that was loaded with `ws` and has its window at `4k` is word `4k + j` of `ws` (R127). -/
theorem windowWordKnown_loaded {st : Store} {ws : List Word} {k : Nat} (h4 : ws.length % 4 = 0)
    (hk : k < ws.length / 4) (j : Fin 4) {w : Word} (hw : ws[4 * k + j.val]? = some w) :
    windowWordKnown (Store.advanced^[k] (ws.foldl Store.appended (st.configured ws.length))) j.val w := by
  have hbase : (4 * k % ws.length + j.val) % ws.length = 4 * k + j.val := by
    rw [Nat.mod_add_mod, Nat.mod_eq_of_lt (by omega)]
  have hn : 0 < ws.length := by omega
  rw [iterate_advanced (by simpa using hn)]
  simp only [foldl_appended_n, foldl_appended_windowBase, configured_n, configured_windowBase, Nat.zero_add]
  refine .inr ⟨hn, h4, ?_, ?_⟩ <;> simp only [hbase]
  · exact (mem_foldl_appended_written rfl le_rfl _).2 (.inl (by omega))
  · rw [read_foldl_appended rfl le_rfl, hw, Option.some_or]

/-! ## The obligations -/

/-- Settles O29: the load puts word `i` of `ws` at index `i`, and the `k` advances put the window at index `4k`. -/
theorem readbackLaw : Obligations.ReadbackLaw := by
  intro id ws k j s h4 hcapacity hword hk
  obtain ⟨loaded, hload, hloaded⟩ := runCommands_load id hcapacity hword s
  obtain ⟨t, hadvance, ht⟩ := runCommands_advances id k loaded
  obtain ⟨w, hread, hknown⟩ := readWindow_returns id j.val t
  refine ⟨t, _, (runCommands_append _ _ s t).2 ⟨loaded, hload, hadvance⟩, (exec_readbackCommand id j t).trans hread, ?_⟩
  have hget : ws[4 * k + j.val]? = some ws[4 * k + j.val] := List.getElem?_eq_getElem (by omega)
  rw [hloaded] at ht
  rw [hget]
  exact congrArg some (hknown _ (ht ▸ windowWordKnown_loaded h4 hk j hget))

/-- Settles O30: `n/4` advances move the window by `n`, and `n` appends bring the write pointer back to 0, so that the further
ones start over at word 0. -/
theorem wrapLaw : Obligations.WrapLaw := by
  refine ⟨fun id s hn h4 hbase => ?_, fun id ws vs s hcapacity hword hfits => ?_⟩
  · obtain ⟨t, hrun, ht⟩ := runCommands_advances id ((s.store id).n / 4) s
    refine ⟨t, hrun, ?_⟩
    have hcircle : 4 * ((s.store id).n / 4) = (s.store id).n := Nat.mul_div_cancel' (Nat.dvd_of_mod_eq_zero h4)
    rw [ht, iterate_advanced (hbase ▸ hn), hbase, hcircle]
    simp
  · obtain ⟨loaded, hload, hloaded⟩ := runCommands_load id hcapacity hword s
    obtain ⟨t, happend, ht⟩ := runCommands_appends id vs loaded
    rw [hloaded] at ht
    have hstart := loaded_writePos (s.store id) ws
    have hroom : vs.length ≤ (ws.foldl Store.appended ((s.store id).configured ws.length)).n := by simpa using hfits
    have hread (i : Nat) : Memory.read (t.store id).buf i = vs[i]?.or (ws[i]?.or (Memory.read (s.store id).buf i)) := by
      rw [ht, read_foldl_appended hstart hroom, read_foldl_appended rfl le_rfl, configured_buf]
    refine ⟨t, (runCommands_append _ _ s t).2 ⟨loaded, hload, happend⟩, fun i hi => ?_, fun i hi hlt => ?_, fun i hi => ?_⟩
    · rw [hread, List.getElem?_eq_getElem hi, Option.some_or]
    · rw [hread, List.getElem?_eq_none hi, Option.none_or, List.getElem?_eq_getElem hlt, Option.some_or]
    · rw [ht]
      exact (mem_foldl_appended_written hstart hroom i).2 (.inr ((mem_foldl_appended_written rfl le_rfl i).2 (.inl hi)))

/-- Settles O22: the operand is within the capacity or above it. -/
theorem configureInputStore : Obligations.ConfigureInputStore := by
  intro v x s
  exact ⟨Iff.mpr (decode_eq_ok_iff_sel 1 1 rfl rfl (fun _ => rfl) nofun) rfl,
    fun hfits => ⟨s.epoch + 1, configureStore_of_le hfits .input s⟩, fun hlarge => configureStore_of_lt hlarge .input s⟩

/-- Settles O23: the operand is within the capacity or above it. -/
theorem configureFilterStore : Obligations.ConfigureFilterStore := by
  intro v x s
  exact ⟨Iff.mpr (decode_eq_ok_iff_sel 3 1 rfl rfl (fun _ => rfl) nofun) rfl,
    fun hfits => ⟨s.epoch + 1, configureStore_of_le hfits .filter s⟩, fun hlarge => configureStore_of_lt hlarge .filter s⟩

/-- Settles O24: the arm replaces InputStore by its append. -/
theorem appendInputWord : Obligations.AppendInputWord := by
  intro v x s
  exact ⟨Iff.mpr (decode_eq_ok_iff_sel 2 1 rfl rfl (fun _ => rfl) nofun) rfl,
    s.epoch + 1, s.input.appended v, appendWord_eq .input v s, appended_empty s.input v, fun hn => appended_fields hn v⟩

/-- Settles O25: the arm replaces FilterStore by its append. -/
theorem appendFilterWord : Obligations.AppendFilterWord := by
  intro v x s
  exact ⟨Iff.mpr (decode_eq_ok_iff_sel 4 1 rfl rfl (fun _ => rfl) nofun) rfl,
    s.epoch + 1, s.filter.appended v, appendWord_eq .filter v s, appended_empty s.filter v, fun hn => appended_fields hn v⟩

/-- Settles O26: each arm reads its word of the window. -/
theorem inputReadbacks : Obligations.InputReadbacks := by
  intro x y s
  exact ⟨⟨Iff.mpr (decode_eq_ok_iff_sel 7 0 rfl rfl nofun nofun) rfl, readWindow_returns .input 0 s⟩,
    ⟨Iff.mpr (decode_eq_ok_iff_sel 8 0 rfl rfl nofun nofun) rfl, readWindow_returns .input 1 s⟩,
    ⟨Iff.mpr (decode_eq_ok_iff_sel 9 0 rfl rfl nofun nofun) rfl, readWindow_returns .input 2 s⟩,
    ⟨Iff.mpr (decode_eq_ok_iff_sel 10 0 rfl rfl nofun nofun) rfl, readWindow_returns .input 3 s⟩⟩

/-- Settles O27: each arm reads its word of the window. -/
theorem filterReadbacks : Obligations.FilterReadbacks := by
  intro x y s
  exact ⟨⟨Iff.mpr (decode_eq_ok_iff_sel 11 0 rfl rfl nofun nofun) rfl, readWindow_returns .filter 0 s⟩,
    ⟨Iff.mpr (decode_eq_ok_iff_sel 12 0 rfl rfl nofun nofun) rfl, readWindow_returns .filter 1 s⟩,
    ⟨Iff.mpr (decode_eq_ok_iff_sel 13 0 rfl rfl nofun nofun) rfl, readWindow_returns .filter 2 s⟩,
    ⟨Iff.mpr (decode_eq_ok_iff_sel 14 0 rfl rfl nofun nofun) rfl, readWindow_returns .filter 3 s⟩⟩

/-- Settles O28: the arm advances both stores. -/
theorem advanceMovesBothWindows : Obligations.AdvanceMovesBothWindows := by
  intro x y s
  refine ⟨Iff.mpr (decode_eq_ok_iff_sel 15 1 rfl rfl nofun nofun) rfl, s.epoch + 1, ?_⟩
  rw [← advanced_eq, ← advanced_eq]
  rfl

end Sys2Proof.Machine
end

section
/-! SUPPORT. The MaccUnit (R129 to R136): the latch over runs of commands, the MAC of empty stores, and the bounds under which
the MAC does not wrap. -/

namespace Sys2Proof.Machine

/-! ## The latch -/

/-- What every command of a run keeps, the run keeps. -/
theorem runCommands_keeps {P : State → Prop} {is : List Instr}
    (hexec : ∀ i ∈ is, ∀ {s t}, exec i s = .next t → P s → P t) {s u : State} (h : runCommands is s = .next u)
    (hs : P s) : P u := by
  induction is generalizing s with
  | nil =>
    cases h
    exact hs
  | cons i is ih =>
    obtain ⟨hi, his⟩ := List.forall_mem_cons.1 hexec
    obtain ⟨t, ht, hu⟩ := (runCommands_cons i is s u).1 h
    exact ih his hu (hi ht hs)

/-- A run without a PING leaves the latch (R133). -/
theorem runCommands_maccLatch {is : List Instr} (hping : ∀ i ∈ is, isPing i = false) {s u : State}
    (h : runCommands is s = .next u) : u.maccLatch = s.maccLatch :=
  runCommands_keeps (P := fun t => t.maccLatch = s.maccLatch)
    (fun i hi _ _ ht hs => (exec_maccLatch (hping i hi) ht).trans hs) h rfl

/-- GET(MACC_OUT) drives the latch as its result (R130). -/
theorem exec_getMaccOut (s : State) : exec .getMaccOut s = .next (driveResult s s.maccLatch) := rfl

/-- A PING answers a next state, with the MAC value of the state before it latched (R131). -/
theorem exec_ping_maccLatch (r : RegId) (a b : Word) (s : State) :
    ∃ t, exec (.ping r a b) s = .next t ∧ t.maccLatch = macValue s := ⟨_, rfl, rfl⟩

/-! ## Empty stores -/

/-- A PING latches 0 where FilterStore is empty (R134, R135). -/
theorem exec_ping_filter_empty (r : RegId) (a b : Word) {s : State} (hn : s.filter.n = 0) :
    ∃ t, exec (.ping r a b) s = .next t ∧ t.maccLatch = 0 := by
  obtain ⟨t, ht, hlatch⟩ := exec_ping_maccLatch r a b s
  exact ⟨t, ht, hlatch.trans (macValue_filter_empty s hn)⟩

/-- A store keeps its word count except in a configuration (R27). -/
theorem StoreEffect.keeps_n {i : Instr} {id : StoreId} {st st' : Store} (h : StoreEffect i id st st')
    (hi : ∀ v, i ≠ configureCommand id v) : st'.n = st.n := by
  cases h with
  | same => rfl
  | configured v command _ => exact absurd command (hi v)
  | appended v _ => exact appended_n st v
  | advanced _ => rw [advanced_eq]

/-- With an empty FilterStore and a latch of 0, every command that is no configuration keeps both (R134, R135). -/
theorem exec_keeps_zero_latch {i : Instr} {s t : State} (hi : ∀ id v, i ≠ configureCommand id v)
    (h : exec i s = .next t) (hs : s.filter.n = 0 ∧ s.maccLatch = 0) : t.filter.n = 0 ∧ t.maccLatch = 0 := by
  obtain ⟨hn, hlatch⟩ := hs
  refine ⟨((exec_storeEffect h .filter).keeps_n (hi .filter)).trans hn, ?_⟩
  cases hping : isPing i with
  | false => exact (exec_maccLatch hping h).trans hlatch
  | true =>
    cases i with
    | ping r a b =>
      cases h
      exact macValue_filter_empty s hn
    | _ => cases hping

/-- No GET, advance or PING configures a store. -/
theorem ne_configureCommand {i : Instr} (h : isGet i = true ∨ i = .setAdvanceWindow ∨ isPing i = true) (id : StoreId)
    (v : Word) : i ≠ configureCommand id v := by
  rintro rfl
  cases id <;> simp [configureCommand, isGet, isPing] at h

/-- The window of an empty store is known to be 0 (R48). -/
theorem windowIs_empty {st : Store} (h : st.n = 0) : windowIs st fun _ => 0 := fun _ _ => .inl ⟨h, rfl⟩

/-- The dot product with an empty InputStore: the offset alone stands in every input lane (R135). -/
theorem windowDot_input_zero (offset : Int) (fls : Nat → Word) :
    windowDot offset (fun _ => 0) fls = ∑ m ∈ Finset.range 16, offset * laneOf fls m := by
  simp [windowDot, laneOf]

/-- A state with an empty InputStore, offset 1 and 1 in lane 0 of each of the four filter words (R135). -/
def onlyFilterLoaded : State :=
  { State.reset with
    inputOffset := 1
    filter := { n := 4, writePos := 0, windowBase := 0, buf := [(0, 1), (1, 1), (2, 1), (3, 1)], written := [0, 1, 2, 3] } }

/-- The MAC value with an empty InputStore need not be 0 (R135). -/
theorem macValue_onlyFilterLoaded : macValue onlyFilterLoaded = 4 := by decide

/-! ## Bounds -/

/-- A lane is a signed byte (R49). -/
theorem laneOf_bounds (ws : Nat → Word) (m : Nat) : -128 ≤ laneOf ws m ∧ laneOf ws m ≤ 127 := by
  have hlow := BitVec.le_toInt ((ws (m / 4)).extractLsb' (8 * (m % 4)) 8)
  have hhigh := BitVec.toInt_le (x := (ws (m / 4)).extractLsb' (8 * (m % 4)) 8)
  simp only [laneOf]
  omega

section
variable {offset : Int} (hlow : -128 ≤ offset) (hhigh : offset ≤ 127) (ins fls : Nat → Word)
include hlow hhigh

/-- An input lane with a tested offset added (R136). -/
theorem term_bounds (m : Nat) : -256 ≤ offset + laneOf ins m ∧ offset + laneOf ins m ≤ 254 := by
  have := laneOf_bounds ins m
  omega

/-- A product of the MAC for a tested offset (R136). -/
theorem abs_product_le (m : Nat) : |(offset + laneOf ins m) * laneOf fls m| ≤ 32768 := by
  have hterm : |offset + laneOf ins m| ≤ 256 := by
    have := term_bounds hlow hhigh ins m
    exact abs_le.2 (by omega)
  have hlane : |laneOf fls m| ≤ 128 := by
    have := laneOf_bounds fls m
    exact abs_le.2 (by omega)
  calc |(offset + laneOf ins m) * laneOf fls m|
    _ = |offset + laneOf ins m| * |laneOf fls m| := abs_mul _ _
    _ ≤ 256 * 128 := mul_le_mul hterm hlane (abs_nonneg _) (by decide)

/-- The sum of the MAC for a tested offset (R136). -/
theorem abs_windowDot_le : |windowDot offset ins fls| ≤ 524288 :=
  calc |windowDot offset ins fls|
    _ ≤ ∑ m ∈ Finset.range 16, |(offset + laneOf ins m) * laneOf fls m| := Finset.abs_sum_le_sum_abs _ _
    _ ≤ (Finset.range 16).card • 32768 := Finset.sum_le_card_nsmul _ _ _ fun m _ => abs_product_le hlow hhigh ins fls m

/-- The sum of the MAC for a tested offset is a signed word, so that it does not wrap (R136). -/
theorem toInt_windowDot : (BitVec.ofInt 32 (windowDot offset ins fls)).toInt = windowDot offset ins fls := by
  have hsum := abs_le.1 (abs_windowDot_le hlow hhigh ins fls)
  exact BitVec.toInt_ofInt_eq_self (by decide) (by omega) (by omega)

end

/-! ## The obligations -/

/-- Settles O32: the arm of SET(INPUT_OFFSET) writes the offset alone. -/
theorem setInputOffsetStoresTheWord : Obligations.SetInputOffsetStoresTheWord := by
  intro v x s
  exact ⟨Iff.mpr (decode_eq_ok_iff_sel 5 1 rfl rfl (fun _ => rfl) nofun) rfl, s.epoch + 1, rfl⟩

/-- Settles O33: GET(MACC_OUT) drives the result and nothing else. -/
theorem getMaccOutReturnsTheLatch : Obligations.GetMaccOutReturnsTheLatch := by
  intro x y s
  exact ⟨Iff.mpr (decode_eq_ok_iff_sel 6 0 rfl rfl nofun nofun) rfl, exec_getMaccOut s⟩

/-- Settles O34: the MAC value that a PING latches is the dot product of the known windows. -/
theorem pingLatchesTheDotProduct : Obligations.PingLatchesTheDotProduct := by
  intro r a b s ins fls hins hfls
  obtain ⟨t, ht, hlatch⟩ := exec_ping_maccLatch r a b s
  exact ⟨t, ht, hlatch.trans (macValue_of_windowIs hins hfls)⟩

/-- Settles O35: none of these commands configures a store, so that FilterStore stays empty and every PING latches 0. -/
theorem emptyStoresGiveZero : Obligations.EmptyStoresGiveZero := by
  refine ⟨fun r a b _ _ hfilter => exec_ping_filter_empty r a b hfilter, fun is his => ?_⟩
  have hconfigure : ∀ i ∈ is, ∀ id v, i ≠ configureCommand id v := fun i hi => ne_configureCommand (his i hi)
  have hanswers : ∀ i ∈ is, ∀ s, ∃ t, exec i s = .next t := fun i hi s =>
    (exec_answers_or_configures i s).resolve_right fun ⟨id, v, hiv⟩ => hconfigure i hi id v hiv
  obtain ⟨u, hu⟩ := runCommands_answers hanswers State.reset
  obtain ⟨-, hlatch⟩ := runCommands_keeps (P := fun s => s.filter.n = 0 ∧ s.maccLatch = 0)
    (fun i hi _ _ => exec_keeps_zero_latch (hconfigure i hi)) hu ⟨rfl, rfl⟩
  exact ⟨_, (runCommands_append _ _ _ _).2 ⟨u, hu, rfl⟩, congrArg some hlatch⟩

/-- Settles O36: all filter lanes of an empty FilterStore are 0, and all input lanes of an empty InputStore. -/
theorem oneEmptyStore : Obligations.OneEmptyStore := by
  refine ⟨fun r a b _ hfilter => exec_ping_filter_empty r a b hfilter, fun r a b s fls hinput _ hfls => ?_,
    0, 0, 0, onlyFilterLoaded, _, rfl, by decide, rfl, ?_⟩
  · obtain ⟨t, ht, hlatch⟩ := exec_ping_maccLatch r a b s
    refine ⟨t, ht, ?_⟩
    rw [hlatch, macValue_of_windowIs (windowIs_empty hinput) hfls, windowDot_input_zero]
  · rw [macTick_maccLatch, macValue_onlyFilterLoaded]
    decide

/-- Settles O37: the bounds on the terms and the lanes give those on the products, these the one on the sum. -/
theorem noWrapForTestedOffsets : Obligations.NoWrapForTestedOffsets := by
  intro r a b s ins fls hins hfls hlow hhigh
  obtain ⟨t, ht, hlatch⟩ := pingLatchesTheDotProduct r a b s ins fls hins hfls
  refine ⟨fun m _ => ?_, abs_windowDot_le hlow hhigh ins fls, t, ht, hlatch ▸ toInt_windowDot hlow hhigh ins fls⟩
  obtain ⟨htermLow, htermHigh⟩ := term_bounds hlow hhigh ins m
  obtain ⟨hlaneLow, hlaneHigh⟩ := laneOf_bounds fls m
  exact ⟨htermLow, htermHigh, hlaneLow, hlaneHigh, abs_product_le hlow hhigh ins fls m⟩

/-- Settles O38: a run without a PING leaves the latch, which GET(MACC_OUT) returns. -/
theorem latchIsStableBetweenPings : Obligations.LatchIsStableBetweenPings := by
  intro is s t his hrun
  exact ⟨_, _, exec_getMaccOut s, exec_getMaccOut t, congrArg some (runCommands_maccLatch his hrun).symm⟩

/-- Settles O40: the commands before and after the PING leave the latch, and the PING latches the dot product. -/
theorem resultVisibleAfterThePing : Obligations.ResultVisibleAfterThePing := by
  intro ys zs r a b s u t ins fls hys hzs hbefore hins hfls hrun
  obtain ⟨v, hping, hafter⟩ := (runCommands_cons _ _ u t).1 hrun
  obtain ⟨v', hping', hdot⟩ := pingLatchesTheDotProduct r a b u ins fls hins hfls
  cases hping'.symm.trans hping
  exact ⟨⟨_, exec_getMaccOut u, congrArg some (runCommands_maccLatch hys hbefore)⟩,
    ⟨_, exec_getMaccOut t, congrArg some ((runCommands_maccLatch hzs hafter).trans hdot)⟩⟩

end Sys2Proof.Machine
end

section
/-! SUPPORT. The refusals in their order (R142), and the fields that no command reads or writes (R141). -/

namespace Sys2Proof

/-- Why the GET column has no command at an id: the id is unmapped (R71), or it has no GET (R70). -/
theorem decodeGet_error {id : Nat} {r : Reserved} (h : decodeGet id = .error r) :
    (16 ≤ id ∧ r = .unmappedId) ∨
      (¬16 ≤ id ∧ id ∉ [0, 6, 7, 8, 9, 10, 11, 12, 13, 14] ∧ r = .wrongDirection) := by
  unfold decodeGet at h
  split at h
  case h_11 =>
    split at h <;> cases h
    · exact .inl ⟨‹_›, rfl⟩
    · exact .inr ⟨‹_›, by simp_all, rfl⟩
  all_goals cases h

/-- Why the SET column has no command at an id: the id is unmapped (R71), or it has no SET (R70). -/
theorem decodeSet_error {id : Nat} {v : Word} {r : Reserved} (h : decodeSet id v = .error r) :
    (16 ≤ id ∧ r = .unmappedId) ∨ (¬16 ≤ id ∧ id ∉ [0, 1, 2, 3, 4, 5, 15] ∧ r = .wrongDirection) := by
  unfold decodeSet at h
  split at h
  case h_8 =>
    split at h <;> cases h
    · exact .inl ⟨‹_›, rfl⟩
    · exact .inr ⟨‹_›, by simp_all, rfl⟩
  all_goals cases h

end Sys2Proof

namespace Sys2Proof.Machine

/-! ## The refusal reasons -/

/-- The first refusal reason of a reserved command is the decoder's (R69 to R71, R142). -/
theorem head_refusalReasons_of_reserved {c : Command} {r : Reserved} (h : decode c = .error r) :
    (refusalReasons c).head? = some (refusalOf r) := by
  obtain hop | hop | hop | hop :
    c.op.toNat = 0 ∨ c.op.toNat = 1 ∨ c.op.toNat = 2 ∨ 3 ≤ c.op.toNat := by omega
  · rcases decodeGet_error ((decode_of_op_zero hop).symm.trans h) with ⟨hid, rfl⟩ | ⟨hid, hget, rfl⟩
    · simp [refusalReasons, refusalOf, hop, hid]
    · simp [refusalReasons, refusalOf, hop, hid, hget]
  · rcases decodeSet_error ((decode_of_op_one hop).symm.trans h) with ⟨hid, rfl⟩ | ⟨hid, hset, rfl⟩
    · simp [refusalReasons, refusalOf, hop, hid]
    · simp [refusalReasons, refusalOf, hop, hid, hset]
  · obtain ⟨_, hping⟩ := (exists_decode_eq_ping_iff c).2 (BitVec.eq_of_toNat_eq hop)
    cases hping.symm.trans h
  · cases (decode_reservedOp hop).symm.trans h
    simp [refusalReasons, refusalOf, hop]

/-- The one refusal reason that a configuration can have is its capacity (R113, R114). -/
theorem refusalReasons_of_configures {c : Command} {id : StoreId} {v : Word}
    (h : decode c = .ok (configureCommand id v)) :
    refusalReasons c = if Config.storeCapacity < v.toNat then [.capacityExceeded] else [] := by
  obtain ⟨⟨hop, hid⟩, hin0, -⟩ := decode_ok h
  cases id with
  | input => simp [refusalReasons, hop, hid, hin0 rfl, configureCommand, encodeOp, encodeRegId, encodeIn0]
  | filter => simp [refusalReasons, hop, hid, hin0 rfl, configureCommand, encodeOp, encodeRegId, encodeIn0]

/-- Every other command that decodes has no refusal reason (R142). -/
theorem refusalReasons_of_not_configures {c : Command} {i : Instr} (h : decode c = .ok i)
    (hi : ¬∃ id v, i = configureCommand id v) : refusalReasons c = [] := by
  obtain ⟨⟨hop, hid⟩, -⟩ := decode_ok h
  cases i with
  | setInputNumWords v => exact absurd ⟨.input, v, rfl⟩ hi
  | setFilterNumWords v => exact absurd ⟨.filter, v, rfl⟩ hi
  | getVerify | getMaccOut | getInputLane0 | getInputLane1 | getInputLane2 | getInputLane3
  | getFilterLane0 | getFilterLane1 | getFilterLane2 | getFilterLane3
  | setVerify _ | setInputWord _ | setFilterWord _ | setInputOffset _ | setAdvanceWindow | ping _ _ _ =>
    simp [refusalReasons, hop, hid, encodeOp, encodeRegId]

/-- A command that decodes has no refusal reason and answers a next state, or it has the capacity as its one reason and is
refused with it (R142). -/
theorem refusalReasons_of_decodes {c : Command} {i : Instr} (h : decode c = .ok i) (s : State) :
    (refusalReasons c = [] ∧ ∃ t, exec i s = .next t) ∨
      (refusalReasons c = [.capacityExceeded] ∧ exec i s = .refused .capacityExceeded) := by
  by_cases hi : ∃ id v, i = configureCommand id v
  · obtain ⟨id, v, rfl⟩ := hi
    rw [refusalReasons_of_configures h, exec_configureCommand]
    rcases configureStore_cases id v s with ⟨hlarge, hrefused⟩ | ⟨hfits, hnext⟩
    · exact .inr ⟨if_pos hlarge, hrefused⟩
    · exact .inl ⟨if_neg hfits.not_gt, _, hnext⟩
  · exact .inl ⟨refusalReasons_of_not_configures h hi, (exec_answers_or_configures i s).resolve_right hi⟩

/-- Settles O9: a reserved command is refused with the decoder's reason, which is the first that applies; one that decodes
can have the capacity alone as its reason. -/
theorem firstRefusalReasonIsReported : Obligations.FirstRefusalReasonIsReported := by
  intro s hreset hvalid
  cases hdecode : decode (nextInput s).cmd with
  | error r => simp [head_refusalReasons_of_reserved hdecode, step_reserved hreset hvalid hdecode]
  | ok i =>
    rw [stepRunsTheDecodedCommand s i hreset hvalid hdecode]
    rcases refusalReasons_of_decodes hdecode _ with ⟨hnone, hnext⟩ | ⟨hcapacity, hrefused⟩
    · simpa [hnone] using hnext
    · simp [hcapacity, hrefused]

/-! ## The fields that no command reads or writes -/

/-- The state with other values in the fields of the FlowRestrictor and of the environment (R33, R35). -/
def State.withSignals (s : State) (c : Nat) (g : Option GateOutputs) (xs : List StepInput) (k : Nat) : State :=
  { s with credit := c, gate := g, inputs := xs, steps := k }

/-- The outcome of a command, with other values in those fields of its next state. -/
def outcomeWithSignals (o : Host.Outcome State Fault Refusal) (c : Nat) (g : Option GateOutputs) (xs : List StepInput)
    (k : Nat) : Host.Outcome State Fault Refusal :=
  match o with
  | .next t => .next (t.withSignals c g xs k)
  | .fault f => .fault f
  | .refused r => .refused r

section
variable (c : Nat) (g : Option GateOutputs) (xs : List StepInput) (k : Nat)

/-- A configuration reads its operand and its store alone (R113, R114). -/
theorem configureStore_withSignals (id : StoreId) (v : Word) (s : State) :
    configureStore id v (s.withSignals c g xs k) = outcomeWithSignals (configureStore id v s) c g xs k := by
  rcases configureStore_cases id v s with ⟨hlarge, hrefused⟩ | ⟨hfits, hnext⟩
  · rw [hrefused, configureStore_of_lt hlarge]
    rfl
  · rw [hnext, configureStore_of_le hfits]
    cases id <;> rfl

/-- No command reads those fields, and none writes them but as it found them (R141). -/
theorem exec_withSignals (i : Instr) (s : State) :
    exec i (s.withSignals c g xs k) = outcomeWithSignals (exec i s) c g xs k := by
  cases i with
  | setInputNumWords v => exact configureStore_withSignals c g xs k .input v s
  | setFilterNumWords v => exact configureStore_withSignals c g xs k .filter v s
  | getVerify | getMaccOut | getInputLane0 | getInputLane1 | getInputLane2 | getInputLane3
  | getFilterLane0 | getFilterLane1 | getFilterLane2 | getFilterLane3 | setVerify _ | setInputOffset _
  | setInputWord _ | setFilterWord _ | setAdvanceWindow | ping _ _ _ => rfl

end

/-- A command leaves those fields as it found them: they have their own values before it (R141). -/
theorem exec_keeps_signals {i : Instr} {s t : State} (h : exec i s = .next t) :
    t = t.withSignals s.credit s.gate s.inputs s.steps := by
  have hsame : exec i s = outcomeWithSignals (exec i s) s.credit s.gate s.inputs s.steps :=
    exec_withSignals s.credit s.gate s.inputs s.steps i s
  rw [h] at hsame
  exact Host.Outcome.next.inj hsame

/-- Settles O47: a command commutes with a change of those fields, and `restrictorStep` writes two of them alone. -/
theorem blocksDoNotInteract : Obligations.BlocksDoNotInteract := by
  intro i s x
  refine ⟨fun c g xs k => (exec_withSignals c g xs k i s).trans ?_, fun t h => ?_, rfl⟩
  · cases exec i s <;> rfl
  · rw [exec_keeps_signals h]
    exact ⟨rfl, rfl, rfl, rfl⟩

end Sys2Proof.Machine
end

section
/-! SUPPORT. Reset events (R153, R155), the throughput of the gate (R165), and runs that load both stores (R156, R159, R160):
what a run of commands leaves in each store and in the offset, each on its own. -/

namespace Sys2Proof.Machine

/-! ## Reset events -/

/-- A reset event in place of a step answers with the reset blocks (R153). -/
theorem step_resetEvent {s : State} {scope : ResetScope} (h : (nextInput s).reset = some scope) :
    step s = .next (resetEvent scope (takeInput s)) := by
  simp [step, h]

/-- Settles O13: the event of the core writes the values of both blocks. -/
theorem coreResetSetsEveryValue : Obligations.CoreResetSetsEveryValue := by
  intro s hreset
  refine ⟨_, step_resetEvent hreset, rfl, rfl, rfl, rfl, rfl, fun id => ?_, rfl, rfl, rfl, rfl, rfl, rfl, rfl⟩
  cases id <;> exact ⟨rfl, rfl, rfl, rfl⟩

/-- Settles O14: each scope writes the fields of its blocks alone, and credit 0 forwards nothing. -/
theorem eachBlockResetsAlone : Obligations.EachBlockResetsAlone := by
  intro s
  refine ⟨fun hprocessor => ?_, fun hrestrictor => ?_, fun hcore => ?_⟩
  · exact ⟨_, step_resetEvent hprocessor, rfl, rfl, rfl, rfl, rfl, rfl, rfl⟩
  · exact ⟨_, step_resetEvent hrestrictor, rfl, rfl, rfl, rfl, rfl, rfl, rfl, fun x => ⟨rfl, forwards_idle x⟩⟩
  · exact ⟨_, step_resetEvent hcore, rfl, rfl, rfl, rfl, rfl, rfl, rfl⟩

/-! ## Throughput of the gate -/

/-- A run has one entry of outputs per step (R97). -/
theorem length_runRestrictor (credit steps : Nat) (xs : List StepInput) :
    (runRestrictor credit steps xs).2.length = xs.length := by
  induction xs generalizing credit steps with
  | nil => rfl
  | cons x xs ih => simp [runRestrictor, ih]

/-- The forwards of a run are that of its first step and those of the rest (R97). -/
theorem forwardCount_runRestrictor_cons (credit steps : Nat) (x : StepInput) (xs : List StepInput) :
    forwardCount (runRestrictor credit steps (x :: xs)).2 =
      (forwards credit x).toNat + forwardCount (runRestrictor (nextCredit credit x) (steps + 1) xs).2 := by
  rw [← forwardCount_gateOutputs credit steps, ← forwardCount_append]
  rfl

/-- With an offer and a ready consumer in every step, as many steps as there is credit use it up (R165). -/
theorem runRestrictor_uses_credit {credit : Nat} (steps : Nat) {xs : List StepInput} (hlength : xs.length = credit)
    (hoffered : ∀ x ∈ xs, x.inAvailable = true ∧ x.outAccepted = true) :
    forwardCount (runRestrictor credit steps xs).2 = credit ∧ (runRestrictor credit steps xs).1 = 0 := by
  induction xs generalizing credit steps with
  | nil => exact ⟨hlength, hlength.symm⟩
  | cons x xs ih =>
    obtain ⟨hx, hxs⟩ := List.forall_mem_cons.1 hoffered
    have hbusy : 0 < credit := hlength ▸ Nat.succ_pos _
    have hforward : forwards credit x = true := (forwards_iff credit x).2 ⟨hbusy, hx⟩
    have hnext : nextCredit credit x = xs.length := by
      rw [nextCredit_not_accepted (releaseAccepted_busy hbusy x), hforward, ← hlength]
      rfl
    obtain ⟨hcount, hcredit⟩ := ih (steps + 1) hnext.symm hxs
    refine ⟨?_, hcredit⟩
    rw [forwardCount_runRestrictor_cons, hcount, hforward, hnext, ← hlength]
    exact Nat.add_comm 1 _

/-- Settles O57: a step counts at most once, and each of the offered steps spends one of the credit. -/
theorem creditUsedUpInExactlyItsSteps : Obligations.CreditUsedUpInExactlyItsSteps := by
  intro credit steps xs
  exact ⟨List.countP_le_length.trans_eq (length_runRestrictor credit steps xs), runRestrictor_uses_credit steps⟩

/-! ## A word appended into the window -/

/-- The window word at the write pointer of an aligned store with words is known after an append: it is the appended word
(R46, R48, R115). -/
theorem windowWordKnown_appended {st : Store} {j : Nat} (hn : 0 < st.n) (h4 : st.n % 4 = 0)
    (hpos : (st.windowBase + j) % st.n = st.writePos) (v : Word) : windowWordKnown (st.appended v) j v := by
  simp only [windowWordKnown, appended_n, appended_windowBase, hpos]
  exact .inr ⟨hn, h4, (mem_appended_written hn v _).2 (.inl rfl), read_appended_writePos hn v⟩

/-- Settles O31: the append makes the word at the write pointer known, and the readback returns a known word. -/
theorem appendedWordReadsBackAtOnce : Obligations.AppendedWordReadsBackAtOnce := by
  intro id v j s hn h4 hpos
  have happend := (exec_appendCommand id v s).trans (appendWord_eq id v s)
  obtain ⟨w, hread, hknown⟩ := readWindow_returns id j.val (completeSet (s.setStore id ((s.store id).appended v)))
  refine ⟨_, _, happend, (exec_readbackCommand id j _).trans hread, congrArg some (hknown v ?_)⟩
  rw [store_completeSet, store_setStore_same]
  exact windowWordKnown_appended hn h4 hpos v

/-! ## The chunks of a loaded store -/

/-- The advances of an aligned store come full circle after `n / 4` of them (R125, R128). -/
theorem isPeriodicPt_advanced {st : Store} {n : Nat} (hbase : st.windowBase < n) (h4 : n % 4 = 0) (hn : st.n = n) :
    Function.IsPeriodicPt Store.advanced (n / 4) st := by
  subst hn
  have hcircle : (st.windowBase + 4 * (st.n / 4)) % st.n = st.windowBase := by
    rw [Nat.mul_div_cancel' (Nat.dvd_of_mod_eq_zero h4), Nat.add_mod_right, Nat.mod_eq_of_lt hbase]
  exact (iterate_advanced hbase _).trans (by rw [hcircle])

/-- Word `j` of chunk `k`, in a circle of `n / 4` chunks of four words (R159). -/
theorem chunk_index {n : Nat} (h4 : n % 4 = 0) (k : Nat) {j : Nat} (hj : j < 4) :
    (4 * k + j) % n = 4 * (k % (n / 4)) + j := by
  obtain ⟨m, rfl⟩ := Nat.dvd_of_mod_eq_zero h4
  have hword : (4 * k + j) % 4 = j := by omega
  have hchunk : (4 * k + j) / 4 = k := by omega
  rw [Nat.mul_div_cancel_left m (by decide), Nat.mod_mul, hword, hchunk, Nat.add_comm]

/-- The window of a store loaded with `ws` is chunk `k` of `ws` after `k` advances, however often they wrap (R159). -/
theorem windowIs_loaded (st : Store) {ws : List Word} (hn : 0 < ws.length) (h4 : ws.length % 4 = 0) (k : Nat) :
    windowIs (Store.advanced^[k] (ws.foldl Store.appended (st.configured ws.length)))
      fun j => ws.getD ((4 * k + j) % ws.length) 0 := by
  intro j hj
  have hperiod : Function.IsPeriodicPt Store.advanced (ws.length / 4)
      (ws.foldl Store.appended (st.configured ws.length)) :=
    isPeriodicPt_advanced (by simpa using hn) (by simpa using h4) (by simp)
  simp only [← hperiod.iterate_mod_apply k, chunk_index h4 k hj]
  have hk : k % (ws.length / 4) < ws.length / 4 := Nat.mod_lt _ (by omega)
  refine windowWordKnown_loaded h4 hk ⟨j, hj⟩ ?_
  have hlt : 4 * (k % (ws.length / 4)) + j < ws.length := by omega
  rw [List.getD_eq_getElem _ _ hlt]
  exact List.getElem?_eq_getElem hlt

/-! ## What a run leaves in a store and in the offset -/

/-- The store of `id` after the command `i`, if `i` answers (R113 to R116, R125). -/
def storeAfter (id : StoreId) (st : Store) (i : Instr) : Store :=
  match id, i with
  | .input, .setInputNumWords v => st.configured v.toNat
  | .filter, .setFilterNumWords v => st.configured v.toNat
  | .input, .setInputWord v => st.appended v
  | .filter, .setFilterWord v => st.appended v
  | _, .setAdvanceWindow => st.advanced
  | _, _ => st

/-- INPUT_OFFSET after the command `i` (R129). -/
def offsetAfter (offset : Word) (i : Instr) : Word :=
  match i with
  | .setInputOffset v => v
  | _ => offset

/-- Every command that answers does to a store what `storeAfter` says. -/
theorem exec_store (id : StoreId) {i : Instr} {s t : State} (h : exec i s = .next t) :
    t.store id = storeAfter id (s.store id) i := by
  cases i with
  | setInputNumWords v =>
    rw [(configureStore_next (id := .input) h).2]
    cases id <;> rfl
  | setFilterNumWords v =>
    rw [(configureStore_next (id := .filter) h).2]
    cases id <;> rfl
  | getVerify | getMaccOut | getInputLane0 | getInputLane1 | getInputLane2 | getInputLane3
  | getFilterLane0 | getFilterLane1 | getFilterLane2 | getFilterLane3
  | setVerify _ | setInputWord _ | setFilterWord _ | setInputOffset _ | setAdvanceWindow | ping _ _ _ =>
    cases h
    cases id <;> rfl

/-- SET(INPUT_OFFSET) alone writes the offset (R25, R129). -/
theorem exec_inputOffset {i : Instr} {s t : State} (h : exec i s = .next t) :
    t.inputOffset = offsetAfter s.inputOffset i := by
  cases i with
  | setInputNumWords v => simp [(configureStore_next (id := .input) h).2, offsetAfter]
  | setFilterNumWords v => simp [(configureStore_next (id := .filter) h).2, offsetAfter]
  | getVerify | getMaccOut | getInputLane0 | getInputLane1 | getInputLane2 | getInputLane3
  | getFilterLane0 | getFilterLane1 | getFilterLane2 | getFilterLane3
  | setVerify _ | setInputWord _ | setFilterWord _ | setInputOffset _ | setAdvanceWindow | ping _ _ _ =>
    cases h
    rfl

/-- A command given `k` times iterates its update (R56). -/
theorem foldl_replicate {α : Type} (update : α → Instr → α) (i : Instr) (k : Nat) (a : α) :
    (List.replicate k i).foldl update a = (update · i)^[k] a := by
  induction k generalizing a with
  | zero => rfl
  | succ k ih => rw [List.replicate_succ, List.foldl_cons, ih, Function.iterate_succ_apply]

/-- A command answers a next state unless it configures a store above the capacity (R113, R114). -/
theorem exec_answers_of_fits {i : Instr}
    (h : ∀ id v, i = configureCommand id v → v.toNat ≤ Config.storeCapacity) (s : State) : ∃ t, exec i s = .next t := by
  rcases exec_answers_or_configures i s with hnext | ⟨id, v, rfl⟩
  · exact hnext
  · exact ⟨_, (exec_configureCommand id v s).trans (configureStore_of_le (h id v rfl) id s)⟩

/-! ## The boot order -/

/-- The commands of the boot order (R156) and `k` advances: both word counts, both stores' words, the offset. -/
def bootCommands (ws fs : List Word) (offset : Word) (k : Nat) : List Instr :=
  [.setInputNumWords (BitVec.ofNat 32 ws.length), .setFilterNumWords (BitVec.ofNat 32 fs.length)]
    ++ ws.map .setInputWord ++ fs.map .setFilterWord ++ [.setInputOffset offset] ++ List.replicate k .setAdvanceWindow

section
variable {ws fs : List Word} (offset : Word) (k : Nat)

/-- The boot order is not refused where both word counts are within the capacity (R113, R114). -/
theorem runCommands_bootCommands_answers (hws : ws.length ≤ Config.storeCapacity) (hfs : fs.length ≤ Config.storeCapacity)
    (s : State) : ∃ t, runCommands (bootCommands ws fs offset k) s = .next t := by
  refine runCommands_answers (fun i hi => exec_answers_of_fits ?_) s
  rintro id v rfl
  cases id with
  | input =>
    have hv : v = BitVec.ofNat 32 ws.length := by simpa [bootCommands, configureCommand] using hi
    exact hv ▸ ((BitVec.toNat_ofNat _ _).trans_le (Nat.mod_le _ _)).trans hws
  | filter =>
    have hv : v = BitVec.ofNat 32 fs.length := by simpa [bootCommands, configureCommand] using hi
    exact hv ▸ ((BitVec.toNat_ofNat _ _).trans_le (Nat.mod_le _ _)).trans hfs

/-- The boot order loads InputStore with its words and advances it (R156). -/
theorem foldl_storeAfter_bootCommands_input (hws : ws.length < 2 ^ 32) (st : Store) :
    (bootCommands ws fs offset k).foldl (storeAfter .input) st =
      Store.advanced^[k] (ws.foldl Store.appended (st.configured ws.length)) := by
  have hlength : ws.length % 4294967296 = ws.length := Nat.mod_eq_of_lt hws
  simp [bootCommands, storeAfter, List.foldl_map, hlength, foldl_replicate]

/-- The boot order loads FilterStore with its words and advances it (R156). -/
theorem foldl_storeAfter_bootCommands_filter (hfs : fs.length < 2 ^ 32) (st : Store) :
    (bootCommands ws fs offset k).foldl (storeAfter .filter) st =
      Store.advanced^[k] (fs.foldl Store.appended (st.configured fs.length)) := by
  have hlength : fs.length % 4294967296 = fs.length := Nat.mod_eq_of_lt hfs
  simp [bootCommands, storeAfter, List.foldl_map, hlength, foldl_replicate]

/-- The boot order sets the offset (R156). -/
theorem foldl_offsetAfter_bootCommands (old : Word) :
    (bootCommands ws fs offset k).foldl offsetAfter old = offset := by
  simp [bootCommands, offsetAfter, List.foldl_map, foldl_replicate, Function.iterate_fixed]

end

/-- Settles O41: the boot order leaves chunk `k` of the words in each window and the offset, whose dot product the PING
latches. -/
theorem loadedStoresGiveTheDotProduct : Obligations.LoadedStoresGiveTheDotProduct := by
  intro ws fs offset k r a b s hws hws4 hwsFits hwsWord hfs hfs4 hfsFits hfsWord
  obtain ⟨t, ht⟩ := runCommands_bootCommands_answers offset k hwsFits hfsFits s
  have hins : windowIs t.input fun j => ws.getD ((4 * k + j) % ws.length) 0 := by
    rw [← store_input, runCommands_foldl (exec_store .input) ht, foldl_storeAfter_bootCommands_input offset k hwsWord]
    exact windowIs_loaded _ hws hws4 k
  have hfls : windowIs t.filter fun j => fs.getD ((4 * k + j) % fs.length) 0 := by
    rw [← store_filter, runCommands_foldl (exec_store .filter) ht, foldl_storeAfter_bootCommands_filter offset k hfsWord]
    exact windowIs_loaded _ hfs hfs4 k
  have hoffset : t.inputOffset = offset :=
    (runCommands_foldl exec_inputOffset ht).trans (foldl_offsetAfter_bootCommands offset k s.inputOffset)
  obtain ⟨u, hping, hlatch⟩ := pingLatchesTheDotProduct r a b t _ _ hins hfls
  refine ⟨_, (runCommands_append _ _ s _).2 ⟨t, ht, (runCommands_cons _ _ t _).2 ⟨u, hping, rfl⟩⟩, ?_⟩
  rw [driveResult_result, hlatch, hoffset]

end Sys2Proof.Machine
end

section
/-! SUPPORT. The decoder and the encoder together (R64 to R68), well-formed commands (R69 to R71), the writers of each register
(R23 to R29), and the invariant at reset (R38). -/

namespace Sys2Proof

open Laws.SelectorEncoding (encode_op encode_regId)

/-! ## The decoder against the encoder -/

/-- Settles O3: an encoded command has the op code, the register id and the operands that the decoder reads. -/
theorem decodeOfEncodeIsIdentity : Obligations.DecodeOfEncodeIsIdentity := by
  intro i
  exact decode_of_fields (encode_op i) (encode_regId i) (fun _ => rfl) (fun _ => rfl)

/-- A command that ignores its first operand is encoded with 0 for it (R67). -/
theorem encodeIn0_of_unused {i : Instr} (h : usesIn0 i = false) : encodeIn0 i = 0 := by
  cases i with
  | getVerify | getMaccOut | getInputLane0 | getInputLane1 | getInputLane2 | getInputLane3
  | getFilterLane0 | getFilterLane1 | getFilterLane2 | getFilterLane3 | setAdvanceWindow => rfl
  | setVerify _ | setInputNumWords _ | setInputWord _ | setFilterNumWords _ | setFilterWord _
  | setInputOffset _ | ping _ _ _ => cases h

/-- A command that ignores its second operand is encoded with 0 for it (R67). -/
theorem encodeIn1_of_unused {i : Instr} (h : usesIn1 i = false) : encodeIn1 i = 0 := by
  cases i with
  | ping _ _ _ => cases h
  | getVerify | getMaccOut | getInputLane0 | getInputLane1 | getInputLane2 | getInputLane3
  | getFilterLane0 | getFilterLane1 | getFilterLane2 | getFilterLane3
  | setVerify _ | setInputNumWords _ | setInputWord _ | setFilterNumWords _ | setFilterWord _
  | setInputOffset _ | setAdvanceWindow => rfl

/-- Settles O4: the decoder fixes the selector and the operands in use, and the encoder puts 0 for the others. -/
theorem encodeOfDecodeKeepsUsedBits : Obligations.EncodeOfDecodeKeepsUsedBits := by
  intro c i h
  obtain ⟨hsel, hin0, hin1⟩ := (decode_eq_ok_iff c i).1 h
  have h0 : encodeIn0 i = if usesIn0 i then c.in0 else 0 := by
    split
    · exact (hin0 ‹_›).symm
    · exact encodeIn0_of_unused (Bool.eq_false_of_not_eq_true ‹_›)
  have h1 : encodeIn1 i = if usesIn1 i then c.in1 else 0 := by
    split
    · exact (hin1 ‹_›).symm
    · exact encodeIn1_of_unused (Bool.eq_false_of_not_eq_true ‹_›)
  rw [← h0, ← h1, hsel]
  rfl

/-- Settles O1: the six selectors are the register ids and the op codes of their commands (R77). -/
theorem wordsDecodeToTheirCommands : Obligations.WordsDecodeToTheirCommands := by
  intro x y
  exact ⟨(decode_eq_ok_iff_sel (i := .getVerify) 0 0 rfl rfl nofun nofun).2 rfl,
    (decode_eq_ok_iff_sel (i := .getMaccOut) 6 0 rfl rfl nofun nofun).2 rfl,
    (decode_eq_ok_iff_sel (i := .getInputLane3) 10 0 rfl rfl nofun nofun).2 rfl,
    (decode_eq_ok_iff_sel (i := .setFilterNumWords x) 3 1 rfl rfl (fun _ => rfl) nofun).2 rfl,
    (decode_eq_ok_iff_sel (i := .setAdvanceWindow) 15 1 rfl rfl nofun nofun).2 rfl,
    (decode_eq_ok_iff_sel (i := .ping 127 x y) 127 2 rfl rfl (fun _ => rfl) (fun _ => rfl)).2 rfl⟩

/-! ## Well-formed commands -/

/-- A command that decodes has the op code and the register id of a row of R66, and these are well formed. -/
theorem wellFormed_of_decodes {c : Command} {i : Instr} (h : decode c = .ok i) : c.wellFormed = true := by
  obtain ⟨⟨hop, hid⟩, -⟩ := decode_ok h
  rw [Command.wellFormed, Command.opOk, Command.idOk, Command.directionOk, hop, hid]
  cases i with
  | getVerify | getMaccOut | getInputLane0 | getInputLane1 | getInputLane2 | getInputLane3
  | getFilterLane0 | getFilterLane1 | getFilterLane2 | getFilterLane3
  | setVerify _ | setInputNumWords _ | setInputWord _ | setFilterNumWords _ | setFilterWord _
  | setInputOffset _ | setAdvanceWindow | ping _ _ _ => rfl

/-- A reserved command fails the check of its op code, of its register id or of its direction (R69 to R71). -/
theorem not_wellFormed_of_reserved {c : Command} {r : Reserved} (h : decode c = .error r) : c.wellFormed = false := by
  obtain hop | hop | hop | hop :
    c.op.toNat = 0 ∨ c.op.toNat = 1 ∨ c.op.toNat = 2 ∨ 3 ≤ c.op.toNat := by omega
  · rcases decodeGet_error ((decode_of_op_zero hop).symm.trans h) with ⟨hid, -⟩ | ⟨-, hget, -⟩
    · simp [Command.wellFormed, Command.idOk, hop, hid]
    · simp [Command.wellFormed, Command.directionOk, hop, hget]
  · rcases decodeSet_error ((decode_of_op_one hop).symm.trans h) with ⟨hid, -⟩ | ⟨-, hset, -⟩
    · simp [Command.wellFormed, Command.idOk, hop, hid]
    · simp [Command.wellFormed, Command.directionOk, hop, hset]
  · obtain ⟨_, hping⟩ := (exists_decode_eq_ping_iff c).2 (BitVec.eq_of_toNat_eq hop)
    cases hping.symm.trans h
  · simp [Command.wellFormed, Command.opOk, hop]

/-- Settles O5: a command decodes or is reserved, and each answer fixes the check. -/
theorem decodesExactlyIfWellFormed : Obligations.DecodesExactlyIfWellFormed := by
  intro c
  cases h : decode c with
  | ok i => simp [wellFormed_of_decodes h]
  | error r => simp [not_wellFormed_of_reserved h]

end Sys2Proof

namespace Sys2Proof.Machine

/-! ## The writers of each register -/

/-- Only SET(VERIFY) adds to VERIFY (R23). -/
theorem verifyAddend_of_not_setVerify {i : Instr} (h : isSetVerify i = false) : verifyAddend i = 0 := by
  cases i with
  | setVerify _ => cases h
  | getVerify | getMaccOut | getInputLane0 | getInputLane1 | getInputLane2 | getInputLane3
  | getFilterLane0 | getFilterLane1 | getFilterLane2 | getFilterLane3
  | setInputNumWords _ | setInputWord _ | setFilterNumWords _ | setFilterWord _
  | setInputOffset _ | setAdvanceWindow | ping _ _ _ => rfl

/-- Only SET(INPUT_OFFSET) moves the offset (R25). -/
theorem offsetAfter_of_ne {i : Instr} (h : ∀ v, i ≠ .setInputOffset v) (offset : Word) : offsetAfter offset i = offset := by
  unfold offsetAfter
  split
  · exact absurd rfl (h _)
  · rfl

/-- A command that neither configures a store nor appends to it keeps its write pointer and its written set (R28, R31). -/
theorem StoreEffect.keeps_written {i : Instr} {id : StoreId} {st st' : Store} (h : StoreEffect i id st st')
    (hconfigure : ∀ v, i ≠ configureCommand id v) (happend : ∀ v, i ≠ appendCommand id v) :
    st'.writePos = st.writePos ∧ st'.written = st.written := by
  cases h with
  | same => exact ⟨rfl, rfl⟩
  | configured v command _ => exact absurd command (hconfigure v)
  | appended v command => exact absurd command (happend v)
  | advanced _ =>
    rw [advanced_eq]
    exact ⟨rfl, rfl⟩

/-- A command that neither configures a store nor advances the windows keeps its window base (R29). -/
theorem StoreEffect.keeps_windowBase {i : Instr} {id : StoreId} {st st' : Store} (h : StoreEffect i id st st')
    (hconfigure : ∀ v, i ≠ configureCommand id v) (hadvance : i ≠ .setAdvanceWindow) :
    st'.windowBase = st.windowBase := by
  cases h with
  | same => rfl
  | configured v command _ => exact absurd command (hconfigure v)
  | appended v _ => exact appended_windowBase st v
  | advanced command => exact absurd command hadvance

/-- A command that does not configure a store keeps its word count; only an append to it moves its write pointer and its
written set, and only an advance its window base (R27 to R31). -/
theorem StoreEffect.frame {i : Instr} {id : StoreId} {st st' : Store} (h : StoreEffect i id st st')
    (hconfigure : ∀ v, i ≠ configureCommand id v) :
    st'.n = st.n ∧
    ((∀ v, i ≠ appendCommand id v) → st'.writePos = st.writePos ∧ st'.written = st.written) ∧
    (i ≠ .setAdvanceWindow → st'.windowBase = st.windowBase) :=
  ⟨h.keeps_n hconfigure, h.keeps_written hconfigure, h.keeps_windowBase hconfigure⟩

/-- Settles O45: each register by the lemma that says what a command does to it, each store by the command's effect. -/
theorem registersAreWrittenOnlyByTheirCommands : Obligations.RegistersAreWrittenOnlyByTheirCommands := by
  intro i s t h
  refine ⟨fun hi => ?_, fun hi => ⟨?_, exec_maccLatch hi h⟩, fun hi => ?_,
    (exec_storeEffect h .input).frame, (exec_storeEffect h .filter).frame⟩
  · simp [exec_verify h, verifyAddend_of_not_setVerify hi]
  · simp [exec_pingSum h, echoAfter, hi]
  · rw [exec_inputOffset h, offsetAfter_of_ne hi]

/-! ## The invariant at reset -/

/-- Settles O15: both stores are reset, and the credit is 0. -/
theorem resetStateHasTheInvariant : Obligations.ResetStateHasTheInvariant :=
  ⟨Store.inv_reset, Store.inv_reset, Nat.two_pow_pos _⟩

end Sys2Proof.Machine
end
